-- ==== Sys2Proof/Word.lean ====
section
/-! DEFINITION. The word types of WSCODEC: bytes, and the 4-byte masking key. -/

namespace Sys2Proof

/-- A byte is 8 bits (00_scope.md R9). -/
abbrev Byte := BitVec 8

/-- A byte sequence, first wire byte first (00_scope.md R10). -/
abbrev Bytes := List Byte

/-- A 32-bit word of the accept-key unit (10_state.md R26). -/
abbrev Word32 := BitVec 32

/-- The masking key: "4 raw bytes" in wire order, `k0` the first key byte on the wire
(20_memory.md R40, 10_state.md R25). -/
structure MaskKey where
  k0 : Byte
  k1 : Byte
  k2 : Byte
  k3 : Byte
deriving DecidableEq, Repr, Inhabited

end Sys2Proof
end

