-- ==== Sys2Proof/Machine/Bytes.lean ====
section
/-! DEFINITION. Byte order: big-endian numbers as byte sequences (00_scope.md R10, 20_memory.md R40), and the masking
key as 4 bytes in wire order. -/

namespace Sys2Proof

/-- `be16(v)`: `[v[15:8], v[7:0]]` (R10). -/
def be16 (v : BitVec 16) : Bytes := [v.extractLsb' 8 8, v.extractLsb' 0 8]

/-- `be32(v)`: `v[31:24]` first (R10). -/
def be32 (v : BitVec 32) : Bytes :=
  [v.extractLsb' 24 8, v.extractLsb' 16 8, v.extractLsb' 8 8, v.extractLsb' 0 8]

/-- `be64(v)`: `v[63:56]` first (R10). -/
def be64 (v : BitVec 64) : Bytes :=
  [v.extractLsb' 56 8, v.extractLsb' 48 8, v.extractLsb' 40 8, v.extractLsb' 32 8] ++
  [v.extractLsb' 24 8, v.extractLsb' 16 8, v.extractLsb' 8 8, v.extractLsb' 0 8]

/-- `frombe(s)`: the unsigned value of `s` read most significant byte first (R10). -/
def frombe (s : Bytes) : Nat := s.foldl (fun acc b => acc * 256 + b.toNat) 0

/-- The key as the bytes it is on the wire (42_masking.md R76). -/
def MaskKey.toBytes (k : MaskKey) : Bytes := [k.k0, k.k1, k.k2, k.k3]

/-- A supplied key has to be exactly 4 bytes (42_masking.md R77). -/
def MaskKey.ofBytes? : Bytes → Option MaskKey
  | [a, b, c, d] => some ⟨a, b, c, d⟩
  | _ => none

/-- `W_KEY <- Pull(4)`: the 4 bytes pulled, in wire order (43_frame_codec.md R83). -/
def MaskKey.ofPulled (bs : Bytes) : MaskKey := ⟨bs.getD 0 0, bs.getD 1 0, bs.getD 2 0, bs.getD 3 0⟩

/-- `k[j mod 4]` (R76). -/
def MaskKey.at (k : MaskKey) (j : Nat) : Byte :=
  match j % 4 with
  | 0 => k.k0
  | 1 => k.k1
  | 2 => k.k2
  | _ => k.k3

end Sys2Proof
end

