-- ==== Sys2Proof/Machine/Base64.lean ====
section
/-! DEFINITION. Base64 with the standard alphabet and `=` padding (44_accept_sha1.md R98; from RFC 4648 by the spec's own
note). -/

namespace Sys2Proof.Machine

/-- `alpha(v)`, the ASCII code of a 6-bit value (R98). -/
def base64Char (v : BitVec 6) : Byte :=
  let n := v.toNat
  if n ≤ 25 then BitVec.ofNat 8 (0x41 + n)
  else if n ≤ 51 then BitVec.ofNat 8 (0x61 + (n - 26))
  else if n ≤ 61 then BitVec.ofNat 8 (0x30 + (n - 52))
  else if n = 62 then 0x2B
  else 0x2F

/-- The ASCII code of `=`. -/
def base64Pad : Byte := 0x3D

/-- The four characters of a group of 3 bytes, `v` being the group read as 24 bits (R98). -/
def base64Group (v : BitVec 24) : Bytes :=
  [base64Char (v.extractLsb' 18 6), base64Char (v.extractLsb' 12 6), base64Char (v.extractLsb' 6 6),
    base64Char (v.extractLsb' 0 6)]

/-- `Base64(d)` (R98): missing bytes of the last group count as 0, and `=` stands for the missing characters. -/
def base64 : Bytes → Bytes
  | [] => []
  | [a] => (base64Group (a ++ 0#16)).take 2 ++ [base64Pad, base64Pad]
  | [a, b] => (base64Group (a ++ b ++ 0#8)).take 3 ++ [base64Pad]
  | a :: b :: c :: rest => base64Group (a ++ b ++ c) ++ base64 rest

end Sys2Proof.Machine
end

