-- ==== Sys2Proof/Syntax.lean ====
section
/-! DEFINITION. The instructions: one constructor per row of spec/opcode_table.json. The first eleven are the
command words of 30_encoding.md R60; the sixteen `ws…` are the base headers of R52, one per frame opcode of R56. -/

namespace Sys2Proof

/-- Operands are the fields of 30_encoding.md R59 (commands) and R52 (headers) that the row uses; 1-bit fields are
`Bool`. -/
inductive Instr where
  /-- HENC (R68): FIN, OPC, MSK, LEN7. -/
  | henc (fin : Bool) (opc : BitVec 4) (msk : Bool) (len7 : BitVec 7)
  /-- HDEC (R69). -/
  | hdec
  /-- LENC (R73). -/
  | lenc
  /-- LDECB (R74): LEN7. -/
  | ldecb (len7 : BitVec 7)
  /-- LDECS (R74): LEN7. -/
  | ldecs (len7 : BitVec 7)
  /-- MASK (R77). -/
  | mask
  /-- FENC (R80): OPC, FIN, MSK, KSUP. -/
  | fenc (opc : BitVec 4) (fin : Bool) (msk : Bool) (ksup : Bool)
  /-- FDECB (R83): TXT. -/
  | fdecb (txt : Bool)
  /-- FDECS (R83): TXT. -/
  | fdecs (txt : Bool)
  /-- UTF8V (R91). -/
  | utf8v
  /-- ACCEPT (R99). -/
  | accept
  /-- Frame opcode 0, continuation (R56). -/
  | wsCont (fin : Bool) (rsv : BitVec 3) (msk : Bool) (len7 : BitVec 7)
  /-- Frame opcode 1, text (R87). -/
  | wsText (fin : Bool) (rsv : BitVec 3) (msk : Bool) (len7 : BitVec 7)
  /-- Frame opcode 2, binary. -/
  | wsBinary (fin : Bool) (rsv : BitVec 3) (msk : Bool) (len7 : BitVec 7)
  /-- Frame opcodes 3 to 7, reserved (R88). -/
  | wsRsv3 (fin : Bool) (rsv : BitVec 3) (msk : Bool) (len7 : BitVec 7)
  | wsRsv4 (fin : Bool) (rsv : BitVec 3) (msk : Bool) (len7 : BitVec 7)
  | wsRsv5 (fin : Bool) (rsv : BitVec 3) (msk : Bool) (len7 : BitVec 7)
  | wsRsv6 (fin : Bool) (rsv : BitVec 3) (msk : Bool) (len7 : BitVec 7)
  | wsRsv7 (fin : Bool) (rsv : BitVec 3) (msk : Bool) (len7 : BitVec 7)
  /-- Frame opcode 8, close (R86). -/
  | wsClose (fin : Bool) (rsv : BitVec 3) (msk : Bool) (len7 : BitVec 7)
  /-- Frame opcode 9, ping. -/
  | wsPing (fin : Bool) (rsv : BitVec 3) (msk : Bool) (len7 : BitVec 7)
  /-- Frame opcode 10, pong. -/
  | wsPong (fin : Bool) (rsv : BitVec 3) (msk : Bool) (len7 : BitVec 7)
  /-- Frame opcodes 11 to 15, reserved (R88). -/
  | wsRsv11 (fin : Bool) (rsv : BitVec 3) (msk : Bool) (len7 : BitVec 7)
  | wsRsv12 (fin : Bool) (rsv : BitVec 3) (msk : Bool) (len7 : BitVec 7)
  | wsRsv13 (fin : Bool) (rsv : BitVec 3) (msk : Bool) (len7 : BitVec 7)
  | wsRsv14 (fin : Bool) (rsv : BitVec 3) (msk : Bool) (len7 : BitVec 7)
  | wsRsv15 (fin : Bool) (rsv : BitVec 3) (msk : Bool) (len7 : BitVec 7)
deriving DecidableEq, Repr

/-- WSCODEC's two encodings (30_encoding.md, introduction): a 32-bit command word, and the 16-bit base header of a
frame, its first wire byte in bits 15:8. -/
inductive Code where
  | command (w : BitVec 32)
  | header (h : BitVec 16)
deriving DecidableEq, Repr

end Sys2Proof
end

