-- ==== Sys2Proof/WellFormed.lean ====
section
/-! DEFINITION. Which instructions have an encoding: all but FENC with KSUP = 1 and MSK = 0. -/

namespace Sys2Proof

/-- A key is supplied only for a masked frame: "FENC with KSUP = 1 and MSK = 0 names a key for a frame that is not
masked" and is illegal (30_encoding.md R61). -/
def keyFieldsLegal (msk ksup : Bool) : Bool := !ksup || msk

/-- The operand widths are in the types of `Instr`; R61 is "the one command-word check that match and mask cannot
express". -/
def WellFormed : Instr → Bool
  | .fenc _ _ msk ksup => keyFieldsLegal msk ksup
  | .henc .. | .hdec | .lenc | .ldecb _ | .ldecs _ | .mask | .fdecb _ | .fdecs _ | .utf8v | .accept => true
  | .wsCont .. | .wsText .. | .wsBinary .. | .wsRsv3 .. | .wsRsv4 .. | .wsRsv5 .. | .wsRsv6 .. | .wsRsv7 .. => true
  | .wsClose .. | .wsPing .. | .wsPong .. => true
  | .wsRsv11 .. | .wsRsv12 .. | .wsRsv13 .. | .wsRsv14 .. | .wsRsv15 .. => true

end Sys2Proof
end

