-- ==== Sys2Proof/Decode.lean ====
section
/-! DEFINITION. The decoder and the encoder of WSCODEC's two encodings: the 32-bit command word (30_encoding.md R59 to
R63) and the 16-bit base header of a frame (R52, R56; 40_header_codec.md R67). -/

namespace Sys2Proof

/-! ## The base header -/

/-- The fields of a base header as UnpackHdr gives them (R67). -/
structure HeaderFields where
  fin : Bool
  rsv : BitVec 3
  opc : BitVec 4
  mask : Bool
  len7 : BitVec 7
deriving DecidableEq, Repr

/-- `PackHdr` (R67): FIN in bit 15, RSV1-3 always 0 on encode, the opcode in 11:8, MASK in 7, LEN7 in 6:0. -/
def packHdr (fin : Bool) (opc : BitVec 4) (mask : Bool) (len7 : BitVec 7) : BitVec 16 :=
  ((BitVec.ofBool fin).setWidth 16 <<< 15) ||| ((0#3).setWidth 16 <<< 12) ||| (opc.setWidth 16 <<< 8) |||
    ((BitVec.ofBool mask).setWidth 16 <<< 7) ||| len7.setWidth 16

/-- `UnpackHdr(h) = (h[15], h[14:12], h[11:8], h[7], h[6:0])` (R67). -/
def unpackHdr (h : BitVec 16) : HeaderFields where
  fin := h.getLsbD 15
  rsv := h.extractLsb' 12 3
  opc := h.extractLsb' 8 4
  mask := h.getLsbD 7
  len7 := h.extractLsb' 0 7

/-- The row of a frame opcode (30_encoding.md R56). -/
def headerInstr (opc : BitVec 4) (fin : Bool) (rsv : BitVec 3) (msk : Bool) (len7 : BitVec 7) : Instr :=
  match opc.toNat with
  | 0 => .wsCont fin rsv msk len7
  | 1 => .wsText fin rsv msk len7
  | 2 => .wsBinary fin rsv msk len7
  | 3 => .wsRsv3 fin rsv msk len7
  | 4 => .wsRsv4 fin rsv msk len7
  | 5 => .wsRsv5 fin rsv msk len7
  | 6 => .wsRsv6 fin rsv msk len7
  | 7 => .wsRsv7 fin rsv msk len7
  | 8 => .wsClose fin rsv msk len7
  | 9 => .wsPing fin rsv msk len7
  | 10 => .wsPong fin rsv msk len7
  | 11 => .wsRsv11 fin rsv msk len7
  | 12 => .wsRsv12 fin rsv msk len7
  | 13 => .wsRsv13 fin rsv msk len7
  | 14 => .wsRsv14 fin rsv msk len7
  | _ => .wsRsv15 fin rsv msk len7

/-- Every 16-bit word is some base header: "the frame opcode, as received, reserved values included". -/
def decodeHeader (h : BitVec 16) : Instr :=
  let f := unpackHdr h
  headerInstr f.opc f.fin f.rsv f.mask f.len7

/-- A header word from its two wire bytes, the first in bits 15:8 (20_memory.md R41). -/
def headerOfBytes (bs : Bytes) : BitVec 16 := BitVec.ofNat 16 (frombe bs)

/-! ## The command word -/

/-- The fields of a command word (30_encoding.md R59). -/
def cmdCode (w : BitVec 32) : BitVec 4 := w.extractLsb' 0 4
def cmdOpc (w : BitVec 32) : BitVec 4 := w.extractLsb' 4 4
def cmdFin (w : BitVec 32) : Bool := w.getLsbD 8
def cmdMsk (w : BitVec 32) : Bool := w.getLsbD 9
def cmdKsup (w : BitVec 32) : Bool := w.getLsbD 10
def cmdTxt (w : BitVec 32) : Bool := w.getLsbD 11
def cmdLen7 (w : BitVec 32) : BitVec 7 := w.extractLsb' 12 7
def cmdSrcm (w : BitVec 32) : Bool := w.getLsbD 19

/-- A row of the command table of R60. -/
structure CommandRow where
  mask : BitVec 32
  pattern : BitVec 32
deriving DecidableEq, Repr

def rowHenc : CommandRow := ⟨0xFFF80C0F, 0x00000001⟩
def rowHdec : CommandRow := ⟨0xFFFFFFFF, 0x00000002⟩
def rowLenc : CommandRow := ⟨0xFFFFFFFF, 0x00000003⟩
def rowLdecb : CommandRow := ⟨0xFFF80FFF, 0x00000004⟩
def rowLdecs : CommandRow := ⟨0xFFF80FFF, 0x00080004⟩
def rowMask : CommandRow := ⟨0xFFFFFFFF, 0x00000005⟩
def rowFenc : CommandRow := ⟨0xFFFFF80F, 0x00000006⟩
def rowFdecb : CommandRow := ⟨0xFFFFF7FF, 0x00000007⟩
def rowFdecs : CommandRow := ⟨0xFFFFF7FF, 0x00080007⟩
def rowUtf8v : CommandRow := ⟨0xFFFFFFFF, 0x00000008⟩
def rowAccept : CommandRow := ⟨0xFFFFFFFF, 0x00000009⟩

/-- The table of R60 in its order. -/
def commandRows : List CommandRow :=
  [rowHenc, rowHdec, rowLenc, rowLdecb, rowLdecs, rowMask, rowFenc, rowFdecb, rowFdecs, rowUtf8v, rowAccept]

/-- `cw and mask = match` (R60). -/
def CommandRow.hits (r : CommandRow) (w : BitVec 32) : Bool := w &&& r.mask == r.pattern

/-- Why a command word is illegal (R62). -/
inductive Reject where
  /-- CODE is 0x0 or 0xA to 0xF. -/
  | reservedCode
  /-- A reserved bit, or a bit of a field the command does not use, is 1. -/
  | unusedBitSet
  /-- FENC with KSUP = 1 and MSK = 0 (R61). -/
  | keyWithoutMask
deriving DecidableEq, Repr

/-- "CODE is 0x0 or 0xA to 0xF" (R62). -/
def codeReserved (c : BitVec 4) : Bool := c == 0 || decide (10 ≤ c.toNat)

/-- "A word is decoded by taking the first row whose cw and mask = match" (R60), then the FENC check of R61. -/
def decodeCommand (w : BitVec 32) : Except Reject Instr :=
  if rowHenc.hits w then .ok (.henc (cmdFin w) (cmdOpc w) (cmdMsk w) (cmdLen7 w))
  else if rowHdec.hits w then .ok .hdec
  else if rowLenc.hits w then .ok .lenc
  else if rowLdecb.hits w then .ok (.ldecb (cmdLen7 w))
  else if rowLdecs.hits w then .ok (.ldecs (cmdLen7 w))
  else if rowMask.hits w then .ok .mask
  else if rowFenc.hits w then
    if keyFieldsLegal (cmdMsk w) (cmdKsup w) then .ok (.fenc (cmdOpc w) (cmdFin w) (cmdMsk w) (cmdKsup w))
    else .error .keyWithoutMask
  else if rowFdecb.hits w then .ok (.fdecb (cmdTxt w))
  else if rowFdecs.hits w then .ok (.fdecs (cmdTxt w))
  else if rowUtf8v.hits w then .ok .utf8v
  else if rowAccept.hits w then .ok .accept
  else if codeReserved (cmdCode w) then .error .reservedCode
  else .error .unusedBitSet

/-- The decoder over both encodings. A base header is never illegal (R56, R57). -/
def decode : Code → Except Reject Instr
  | .command w => decodeCommand w
  | .header h => .ok (decodeHeader h)

/-! ## The encoder -/

/-- A command word from its fields, most significant first: 31:20 zero, SRCM, LEN7, TXT, KSUP, MSK, FIN, OPC, CODE
(R59). -/
def commandWord (srcm : Bool) (len7 : BitVec 7) (txt ksup msk fin : Bool) (opc code : BitVec 4) : BitVec 32 :=
  0#12 ++ BitVec.ofBool srcm ++ len7 ++ BitVec.ofBool txt ++ BitVec.ofBool ksup ++ BitVec.ofBool msk ++
    BitVec.ofBool fin ++ opc ++ code

/-- A received header word from its fields, most significant first: FIN, RSV1-3, OPCODE, MASK, LEN7 (R52). -/
def headerWord (fin : Bool) (rsv : BitVec 3) (opc : BitVec 4) (msk : Bool) (len7 : BitVec 7) : BitVec 16 :=
  BitVec.ofBool fin ++ rsv ++ opc ++ BitVec.ofBool msk ++ len7

/-- The word of an instruction. -/
def encode : Instr → Code
  | .henc fin opc msk len7 => .command (commandWord false len7 false false msk fin opc 0x1)
  | .hdec => .command (commandWord false 0 false false false false 0 0x2)
  | .lenc => .command (commandWord false 0 false false false false 0 0x3)
  | .ldecb len7 => .command (commandWord false len7 false false false false 0 0x4)
  | .ldecs len7 => .command (commandWord true len7 false false false false 0 0x4)
  | .mask => .command (commandWord false 0 false false false false 0 0x5)
  | .fenc opc fin msk ksup => .command (commandWord false 0 false ksup msk fin opc 0x6)
  | .fdecb txt => .command (commandWord false 0 txt false false false 0 0x7)
  | .fdecs txt => .command (commandWord true 0 txt false false false 0 0x7)
  | .utf8v => .command (commandWord false 0 false false false false 0 0x8)
  | .accept => .command (commandWord false 0 false false false false 0 0x9)
  | .wsCont fin rsv msk len7 => .header (headerWord fin rsv 0 msk len7)
  | .wsText fin rsv msk len7 => .header (headerWord fin rsv 1 msk len7)
  | .wsBinary fin rsv msk len7 => .header (headerWord fin rsv 2 msk len7)
  | .wsRsv3 fin rsv msk len7 => .header (headerWord fin rsv 3 msk len7)
  | .wsRsv4 fin rsv msk len7 => .header (headerWord fin rsv 4 msk len7)
  | .wsRsv5 fin rsv msk len7 => .header (headerWord fin rsv 5 msk len7)
  | .wsRsv6 fin rsv msk len7 => .header (headerWord fin rsv 6 msk len7)
  | .wsRsv7 fin rsv msk len7 => .header (headerWord fin rsv 7 msk len7)
  | .wsClose fin rsv msk len7 => .header (headerWord fin rsv 8 msk len7)
  | .wsPing fin rsv msk len7 => .header (headerWord fin rsv 9 msk len7)
  | .wsPong fin rsv msk len7 => .header (headerWord fin rsv 10 msk len7)
  | .wsRsv11 fin rsv msk len7 => .header (headerWord fin rsv 11 msk len7)
  | .wsRsv12 fin rsv msk len7 => .header (headerWord fin rsv 12 msk len7)
  | .wsRsv13 fin rsv msk len7 => .header (headerWord fin rsv 13 msk len7)
  | .wsRsv14 fin rsv msk len7 => .header (headerWord fin rsv 14 msk len7)
  | .wsRsv15 fin rsv msk len7 => .header (headerWord fin rsv 15 msk len7)

/-! ## The table's numbering of bits -/

/-- A row of the opcode table is a 16-bit base header (two wire bytes, the first in bits 15:8) or a 32-bit command
word; both are one word, so the table's bit 0 is the word's bit 0. -/
def tableCode (nbits w : Nat) : Option Code :=
  if nbits ≤ 16 then
    if w < 0x10000 then some (.header (headerOfBytes (be16 (BitVec.ofNat 16 w)))) else none
  else if w < 0x100000000 then some (.command (BitVec.ofNat 32 w)) else none

/-- The instruction the decoder reads from a word of the opcode table; none where it refuses. -/
def decodeTableWord (nbits w : Nat) : Option Instr :=
  match tableCode nbits w with
  | none => none
  | some c =>
    match decode c with
    | .ok i => some i
    | .error _ => none

end Sys2Proof
end

