-- ==== Sys2Proof/Config.lean ====
section
/-! DEFINITION. The implementation parameters of 00_scope.md R8: the fixed ones, and the OPEN ones that are no
part of State. (The OPEN parameter MAX_PAYLOAD is the field `maxPayload` of State, notes/assumptions/6.md.) -/

namespace Sys2Proof

/-- `KEY_BYTES`: the masking key length (R8). -/
def Config.keyBytes : Nat := 4

/-- `WIRE_LEN_MAX` + 1: the lengths the wire can carry are those below 2^63 (R8, 90_conflicts.md C4). -/
def Config.wireLenBound : Nat := 0x8000000000000000

/-- `DIGEST_BYTES` and `ACCEPT_CHARS` (R8). -/
def Config.digestBytes : Nat := 20
def Config.acceptChars : Nat := 28

/-- `GUID`: the 36 ASCII bytes of 258EAFA5-E914-47DA-95CA-C5AB0DC85B11, from the hex listing of
44_accept_sha1.md R93. A fixed table, "not configurable". -/
def Config.guid : Bytes :=
  [0x32, 0x35, 0x38, 0x45, 0x41, 0x46, 0x41, 0x35, 0x2D] ++
  [0x45, 0x39, 0x31, 0x34, 0x2D, 0x34, 0x37, 0x44, 0x41, 0x2D] ++
  [0x39, 0x35, 0x43, 0x41, 0x2D] ++
  [0x43, 0x35, 0x41, 0x42, 0x30, 0x44, 0x43, 0x38, 0x35, 0x42, 0x31, 0x31]

/-- `MASK_KEY_SOURCE`: the key of the n-th draw that the environment has not queued (42_masking.md R78, O3).
A FREE VALUE: no body, so any of the 2^32 keys may come at any n (notes/assumptions/7.md). -/
opaque Config.maskKeySource : Nat → MaskKey

/-- `CLIENT_KEY`: the host's 16 key bytes (45_handshake_host.md R102, O4). A FREE VALUE, host side
(notes/assumptions/21.md). -/
opaque Config.clientKey : Vector Byte 16

end Sys2Proof
end

