-- ==== Sys2Proof/Machine/State.lean ====
section
/-! DEFINITION. The state of one WSCODEC instance (10_state.md), the reasons a step can stop, and the state after
reset. Plain data throughout. -/

namespace Sys2Proof.Machine

/-- The sequencer state (R18). -/
inductive Phase where
  | idle
  | exec
  | fHdr
  | fExt
  | fKey
  | fPay
  | fPost
deriving DecidableEq, Repr

/-- The operand registers (R21). -/
structure OpRegs where
  /-- `OP_HDR`, first wire byte in bits 15:8. -/
  hdr : BitVec 16
  /-- `OP_LEN`. -/
  len : BitVec 64
  /-- `OP_DATA`. -/
  data : Bytes
  /-- `OP_KEY`. -/
  key : Bytes
  /-- `OP_BUF`. -/
  buf : Bytes
deriving DecidableEq, Repr

/-- The four STATUS flags (R22). -/
structure Status where
  busy : Bool
  done : Bool
  err : Bool
  hold : Bool
deriving DecidableEq, Repr

/-- The result registers (R24). -/
structure ResRegs where
  data : Bytes
  fin : Bool
  /-- RSV1 in bit 2, RSV2 in bit 1, RSV3 in bit 0. -/
  rsv : BitVec 3
  opc : BitVec 4
  mask : Bool
  len7 : BitVec 7
  len : BitVec 64
  close : BitVec 16
  closeV : Bool
  consumed : BitVec 64
deriving DecidableEq, Repr

/-- The frame-codec working registers `W_*` (R25). -/
structure WorkRegs where
  hdr : BitVec 16
  fin : Bool
  rsv : BitVec 3
  opc : BitVec 4
  mask : Bool
  len7 : BitVec 7
  plen : BitVec 64
  key : MaskKey
  pay : Bytes
  cnt : BitVec 64
deriving DecidableEq, Repr

/-- The accept-key unit's working registers (R26): the chaining words, the round variables, the message schedule
W0..W79 in order, the round counter, the padded message M' and its block index. -/
structure ShaRegs where
  h0 : Word32
  h1 : Word32
  h2 : Word32
  h3 : Word32
  h4 : Word32
  a : Word32
  b : Word32
  c : Word32
  d : Word32
  e : Word32
  wt : List Word32
  t : Nat
  msg : Bytes
  blk : Nat
deriving DecidableEq, Repr

/-- What the host presents on the command port: a command word and the operands (R28, R30). -/
structure PortCmd where
  cw : BitVec 32
  ops : OpRegs
deriving DecidableEq, Repr

/-- One coming step of an agent (R15, R28). The schedule of them is the model's own (notes/assumptions/2.md). -/
inductive Input where
  /-- The host presents a command on the command port (R30). -/
  | issue (p : PortCmd)
  /-- The transport appends bytes at the tail of STRM (R36). -/
  | arrive (bs : Bytes)
  /-- The host itself reads n bytes from the transport (R127 (a)). -/
  | take (n : Nat)
  /-- The engine has the move (R19). -/
  | engine
  /-- The host drives the reset input (R121). -/
  | reset
deriving DecidableEq, Repr

/-- The whole state. The last four fields are the model's own, not the spec's registers (INVENTORY.md). -/
structure State where
  /-- `PHASE` (R18). -/
  phase : Phase
  /-- `CMD` (R20). -/
  cmd : BitVec 32
  /-- `OP_*` (R21). -/
  ops : OpRegs
  /-- `STATUS` (R22). -/
  status : Status
  /-- `ERRCODE` (R23). -/
  errcode : BitVec 4
  /-- `RES_*` (R24). -/
  res : ResRegs
  /-- `W_*` (R25). -/
  work : WorkRegs
  /-- The SHA-1 registers (R26). -/
  sha : ShaRegs
  /-- `STRM` (20_memory.md R36). -/
  strm : Bytes
  /-- The OPEN parameter `MAX_PAYLOAD` (00_scope.md R8); no step changes it (notes/assumptions/6.md). -/
  maxPayload : Fin 0x8000000000000000
  /-- Draws waiting on the key-draw input (R28, 42_masking.md R78; notes/assumptions/7.md). -/
  keyDraws : List MaskKey
  /-- How many draws `Config.maskKeySource` has supplied (notes/assumptions/7.md). -/
  drawCount : Nat
  /-- The schedule of the agents' coming steps (notes/assumptions/2.md). -/
  inputs : List Input
deriving DecidableEq, Repr

/-- The machine stops with a fault. The spec has no such stop: every error of R108 is a next state. -/
inductive Fault where
  /-- Raised by the engine's step in a state no run reaches: BUSY = 1 with PHASE = IDLE or EXEC, or a stream phase
  whose CMD is not the stream command that has that phase (R18, R30). Safe: the spec gives such a state no meaning. -/
  | strayPhase
deriving DecidableEq, Repr

/-- The step has no meaning. -/
inductive Refusal where
  /-- Raised by an arm of `exec` that has no meaning yet. Safe. -/
  | notModelled (mnemonic : String)
  /-- Raised by FDECB, FDECS and the base headers when the resolved length exceeds MAX_PAYLOAD: "a model refuses such a
  command" (43_frame_codec.md R89). Safe: the spec gives it no meaning. -/
  | payloadOverCapacity
  /-- Raised by ACCEPT when 8 * len(M) >= 2^64: "not paddable", refuse (44_accept_sha1.md R99). Safe: the spec gives
  it no meaning. -/
  | messageUnpaddable
  /-- Raised by an issue whose operand is longer than its register holds (R21, notes/assumptions/10.md). Safe: the
  host has no such step. -/
  | operandOverCapacity
deriving DecidableEq, Repr

/-- What a step or a meaning answers. -/
abbrev Result := Host.Outcome State Fault Refusal

/-- The reset value of the operand registers (R32). -/
def OpRegs.cleared : OpRegs := { hdr := 0, len := 0, data := [], key := [], buf := [] }

/-- The reset value of STATUS (R32). -/
def Status.cleared : Status := { busy := false, done := false, err := false, hold := false }

/-- The reset value of the result registers, which is also the "cleared value" of R30 (R32). -/
def ResRegs.cleared : ResRegs :=
  { data := [], fin := false, rsv := 0, opc := 0, mask := false, len7 := 0, len := 0, close := 0, closeV := false,
    consumed := 0 }

/-- DESIGN CHOICE: the working registers at power-on; R32 says "unspecified (not observable)"
(notes/assumptions/8.md). -/
def WorkRegs.powerOn : WorkRegs :=
  { hdr := 0, fin := false, rsv := 0, opc := 0, mask := false, len7 := 0, plen := 0, key := ⟨0, 0, 0, 0⟩, pay := [],
    cnt := 0 }

/-- DESIGN CHOICE: the SHA-1 registers at power-on; R32 says "unspecified (not observable)"
(notes/assumptions/9.md). -/
def ShaRegs.powerOn : ShaRegs :=
  { h0 := 0, h1 := 0, h2 := 0, h3 := 0, h4 := 0, a := 0, b := 0, c := 0, d := 0, e := 0, wt := [], t := 0, msg := [],
    blk := 0 }

/-- The power-on state of an instance whose MAX_PAYLOAD is `m`: "the state at power-on is the state after reset"
(70_reset_and_hazards.md R123), nothing arrived yet, nothing scheduled. -/
def State.powerOn (m : Fin 0x8000000000000000) : State :=
  { phase := .idle, cmd := 0, ops := .cleared, status := .cleared, errcode := 0, res := .cleared, work := .powerOn,
    sha := .powerOn, strm := [], maxPayload := m, keyDraws := [], drawCount := 0, inputs := [] }

/-- The machine right after reset. DESIGN CHOICE: MAX_PAYLOAD, which the spec leaves open, is the largest value R8
allows, 2^63 - 1 (notes/assumptions/6.md). -/
def State.reset : State := .powerOn ⟨0x7FFFFFFFFFFFFFFF, by decide⟩

end Sys2Proof.Machine
end

