-- ==== Sys2Proof/Machine/Flags.lean ====
section
/-! DEFINITION. STATUS and ERRCODE: what issue, completion, the error exit, a hold and a phase step do to the flags
(10_state.md R22, R23, R30, R31; 60_exceptions.md R108, R110). No command computes any other flag (R22). -/

namespace Sys2Proof.Machine

/-- The error kinds (60_exceptions.md R108). -/
inductive ErrKind where
  /-- `TruncatedFrameError`. -/
  | truncated
  /-- `ProtocolError`. -/
  | protocol
  /-- `InvalidKeyLength`. -/
  | keyLength
  /-- `InvalidEncodingError`. -/
  | encoding
  /-- `MalformedHandshakeError`: never raised by WSCODEC, reserved for the host (R106). -/
  | handshake
  /-- `IllegalCommand`, the spec's own kind. -/
  | illegalCommand
deriving DecidableEq, Repr

/-- `code(E)`: the ERRCODE of an error kind (10_state.md R23). -/
def ErrKind.code : ErrKind → BitVec 4
  | .truncated => 1
  | .protocol => 2
  | .keyLength => 3
  | .encoding => 4
  | .handshake => 5
  | .illegalCommand => 6

/-- Issue: `BUSY <- 1; DONE <- 0; ERR <- 0; HOLD <- 0` (R30). -/
def statusIssued : Status := { busy := true, done := false, err := false, hold := false }

/-- Completion: `BUSY <- 0, DONE <- 1, HOLD <- 0` (R31); ERR keeps the 0 it took at issue. -/
def statusCompleted (f : Status) : Status := { busy := false, done := true, err := f.err, hold := false }

/-- The error exit: `ERR <- 1; DONE <- 1; BUSY <- 0; HOLD <- 0` (R110). -/
def statusRaised : Status := { busy := false, done := true, err := true, hold := false }

/-- HOLD alone (R22). -/
def statusHold (f : Status) (h : Bool) : Status := { f with hold := h }

end Sys2Proof.Machine
end

