-- ==== Sys2Proof/Machine/Operands.lean ====
section
/-! DEFINITION. The operand forms: what the command port latches at issue (10_state.md R20, R21, R30), and what fits
its registers. The fields of CMD are in Sys2Proof/Decode.lean. -/

namespace Sys2Proof.Machine

/-- `OP_DATA` and `OP_KEY` hold 0 to MAX_PAYLOAD bytes, `OP_BUF` 0 to MAX_PAYLOAD + 14 (R21). -/
def OpRegs.fits (o : OpRegs) (m : Nat) : Bool :=
  decide (o.data.length ≤ m) && decide (o.key.length ≤ m) && decide (o.buf.length ≤ m + 14)

/-- Issue (R30): CMD and the operand registers are latched, the flags set, ERRCODE and the result registers cleared.
PHASE is EXEC here; the meaning of a stream-mode command takes it on to F_HDR or F_EXT in the same step. -/
def latch (p : PortCmd) (s : State) : State :=
  { s with
    cmd := p.cw
    ops := p.ops
    status := statusIssued
    errcode := 0
    res := .cleared
    phase := .exec }

end Sys2Proof.Machine
end

