-- ==== Sys2Proof/Machine/Ops.lean ====
section
/-! DEFINITION. The shared operations: completion and the error exit (10_state.md R31, 60_exceptions.md R110), Pull over
its two byte sources (20_memory.md R37, R38), the masking-key draw (42_masking.md R78), and the steps of the agents
outside the engine (R36, R121, R127). -/

namespace Sys2Proof.Machine

/-! ## The two ways a command ends -/

/-- Completion (R31): the results, `BUSY <- 0, DONE <- 1, HOLD <- 0, PHASE <- IDLE`. -/
def complete (r : ResRegs) (s : State) : Result :=
  .next { s with res := r, status := statusCompleted s.status, phase := .idle }

/-- TAKING AN EXCEPTION: `raise E` (R110). ERRCODE, the flags and PHASE change; nothing else is saved, and every result
register keeps the cleared value it took at issue. There is no return operation: the next issue clears the error
(R113). -/
def raise (e : ErrKind) (s : State) : Result :=
  .next { s with errcode := e.code, status := statusRaised, phase := .idle }

/-! ## Pull -/

/-- A buffer-mode `Pull(n)` that succeeds: `W_CNT <- W_CNT + n` (R37). -/
def countPulled (n : Nat) (s : State) : State :=
  { s with work := { s.work with cnt := s.work.cnt + BitVec.ofNat 64 n } }

/-- `Pull(n)` in buffer mode (R37): past the end of OP_BUF it raises `TruncatedFrameError` and consumes nothing, else
`k` goes on with the bytes. OP_BUF is never changed (R46). -/
def onBuffer (n : Nat) (s : State) (k : Bytes → State → Result) : Result :=
  if s.ops.buf.length < s.work.cnt.toNat + n then raise .truncated s
  else k ((s.ops.buf.drop s.work.cnt.toNat).take n) (countPulled n s)

/-- A stream-mode `Pull(n)` that is enabled: the bytes leave the head of STRM, and HOLD is cleared, since "the phase
step is taken" (R37, R22). -/
def pullStream (n : Nat) (s : State) : State :=
  { s with
    strm := s.strm.drop n
    work := { s.work with cnt := s.work.cnt + BitVec.ofNat 64 n }
    status := statusHold s.status false }

/-- The engine holds: `HOLD <- 1, no step` (R37, R38). -/
def holdStream (s : State) : Result := .next { s with status := statusHold s.status true }

/-- `Pull(n)` in stream mode, one phase step (R37): enabled only when STRM holds n bytes, else the engine holds. -/
def onStream (n : Nat) (s : State) (k : Bytes → State → Result) : Result :=
  if s.strm.length < n then holdStream s else k (s.strm.take n) (pullStream n s)

/-- The engine enters a phase that needs n stream bytes; HOLD is 1 iff the stream holds fewer (R19, R22;
notes/assumptions/5.md). -/
def enterPhase (ph : Phase) (n : Nat) (s : State) : Result :=
  .next { s with phase := ph, status := statusHold s.status (decide (s.strm.length < n)) }

/-! ## The masking-key draw -/

/-- `Draw4()` (42_masking.md R78): the next draw waiting on the key-draw input; when none waits, the free value
`Config.maskKeySource` (notes/assumptions/7.md). -/
def draw4 (s : State) : MaskKey × State :=
  match s.keyDraws with
  | k :: ks => (k, { s with keyDraws := ks })
  | [] => (Config.maskKeySource s.drawCount, { s with drawCount := s.drawCount + 1 })

/-! ## The agents outside the engine -/

/-- A transport step: bytes are appended at the tail of STRM in arrival order (R36). HOLD is cleared by the phase step,
not here (R22; notes/assumptions/5.md). -/
def arriveBytes (bs : Bytes) (s : State) : State := { s with strm := s.strm ++ bs }

/-- The host reads n bytes of the transport itself: they are gone from STRM, and a frame being decoded "is the frame
formed by what remains" (R127 (a)). -/
def takeBytes (n : Nat) (s : State) : State := { s with strm := s.strm.drop n }

/-- The reset input (R121, R122): every register takes its value of R32, STRM stays, the draw has no state to reset.
The working registers, which R32 leaves unspecified, stay as they are (notes/assumptions/8.md). -/
def resetRegs (s : State) : State :=
  { s with
    phase := .idle
    cmd := 0
    ops := .cleared
    status := .cleared
    errcode := 0
    res := .cleared }

end Sys2Proof.Machine
end

