-- ==== Sys2Proof/Machine/Sha1.lean ====
section
/-! DEFINITION. The SHA-1 core (44_accept_sha1.md R95, R96; from FIPS 180-4 by the spec's own note), run over the
accept-key unit's registers of 10_state.md R26. -/

namespace Sys2Proof.Machine

/-- `z`, "the least number >= 0 with (n + 1 + z + 8) mod 64 = 0" (R95). -/
def padZeros (n : Nat) : Nat := (64 - (n + 9) % 64) % 64

/-- `M' = M ++ [0x80] ++ zeros(z) ++ be64(8*n)` (R95). -/
def padMessage (m : Bytes) : Bytes :=
  m ++ [0x80] ++ List.replicate (padZeros m.length) 0x00 ++ be64 (BitVec.ofNat 64 (8 * m.length))

/-- The first `n` blocks of 64 bytes, `B(0)` first (R95). -/
def blocks64 : Nat → Bytes → List Bytes
  | 0, _ => []
  | n + 1, m => m.take 64 :: blocks64 n (m.drop 64)

/-- The first `n` big-endian 32-bit words of a block (R96). -/
def words32 : Nat → Bytes → List Word32
  | 0, _ => []
  | n + 1, b => BitVec.ofNat 32 (frombe (b.take 4)) :: words32 n (b.drop 4)

/-- One more schedule word: `Wt <- rotl_1(W(t-3) xor W(t-8) xor W(t-14) xor W(t-16))` (R96), the list holding the latest
word first. -/
def nextSchedule (ws : List Word32) : Word32 :=
  (ws.getD 2 0 ^^^ ws.getD 7 0 ^^^ ws.getD 13 0 ^^^ ws.getD 15 0).rotateLeft 1

/-- `n` more schedule words, latest first. -/
def extendSchedule : Nat → List Word32 → List Word32
  | 0, ws => ws
  | n + 1, ws => extendSchedule n (nextSchedule ws :: ws)

/-- `W0 .. W79` of a block, in order (R96). -/
def schedule (b : Bytes) : List Word32 := (extendSchedule 64 (words32 16 b).reverse).reverse

/-- `f(t, x, y, z)` (R96): Ch, Parity, Maj, Parity. -/
def sha1F (t : Nat) (x y z : Word32) : Word32 :=
  if t ≤ 19 then (x &&& y) ||| (~~~x &&& z)
  else if t ≤ 39 then x ^^^ y ^^^ z
  else if t ≤ 59 then (x &&& y) ||| (x &&& z) ||| (y &&& z)
  else x ^^^ y ^^^ z

/-- `K(t)` (R96). -/
def sha1K (t : Nat) : Word32 :=
  if t ≤ 19 then 0x5A827999 else if t ≤ 39 then 0x6ED9EBA1 else if t ≤ 59 then 0x8F1BBCDC else 0xCA62C1D6

/-- Round t (R96): `T <- rotl_5(A) + f(t, B, C, D) + E + K(t) + Wt; E <- D; D <- C; C <- rotl_30(B); B <- A; A <- T`. -/
def sha1Round (t : Nat) (w : Word32) (r : ShaRegs) : ShaRegs :=
  { r with
    t := t
    e := r.d
    d := r.c
    c := r.b.rotateLeft 30
    b := r.a
    a := r.a.rotateLeft 5 + sha1F t r.b r.c r.d + r.e + sha1K t + w }

/-- The rounds from t on, one per schedule word. -/
def sha1Rounds : Nat → List Word32 → ShaRegs → ShaRegs
  | _, [], r => r
  | t, w :: ws, r => sha1Rounds (t + 1) ws (sha1Round t w r)

/-- `A <- H0; B <- H1; C <- H2; D <- H3; E <- H4` and the schedule of block i (R96). -/
def openBlock (i : Nat) (b : Bytes) (r : ShaRegs) : ShaRegs :=
  { r with blk := i, wt := schedule b, a := r.h0, b := r.h1, c := r.h2, d := r.h3, e := r.h4 }

/-- `H0 <- H0 + A; …; H4 <- H4 + E` (R96). -/
def closeBlock (r : ShaRegs) : ShaRegs :=
  { r with h0 := r.h0 + r.a, h1 := r.h1 + r.b, h2 := r.h2 + r.c, h3 := r.h3 + r.d, h4 := r.h4 + r.e }

/-- One block: 80 rounds (R96, R97). -/
def sha1Block (i : Nat) (b : Bytes) (r : ShaRegs) : ShaRegs :=
  let r' := openBlock i b r
  closeBlock (sha1Rounds 0 r'.wt r')

/-- The blocks in order, from block i on. -/
def sha1Blocks : Nat → List Bytes → ShaRegs → ShaRegs
  | _, [], r => r
  | i, b :: bs, r => sha1Blocks (i + 1) bs (sha1Block i b r)

/-- `H0 <- 0x67452301; …; H4 <- 0xC3D2E1F0`, loaded at the start of every ACCEPT (R96), and M'. -/
def sha1Init (m : Bytes) (r : ShaRegs) : ShaRegs :=
  { r with
    h0 := 0x67452301, h1 := 0xEFCDAB89, h2 := 0x98BADCFE, h3 := 0x10325476, h4 := 0xC3D2E1F0
    msg := padMessage m }

/-- The core over its registers: the message is padded, split into `len(M')/64` blocks and run (R95, R96). -/
def sha1Run (m : Bytes) (r : ShaRegs) : ShaRegs :=
  let r' := sha1Init m r
  sha1Blocks 0 (blocks64 (r'.msg.length / 64) r'.msg) r'

/-- `be32(H0) ++ … ++ be32(H4)` (R96). -/
def digest (r : ShaRegs) : Bytes := be32 r.h0 ++ be32 r.h1 ++ be32 r.h2 ++ be32 r.h3 ++ be32 r.h4

/-- `SHA1(M)`: 20 bytes (R96). -/
def sha1 (m : Bytes) : Bytes := digest (sha1Run m .powerOn)

end Sys2Proof.Machine
end

