-- ==== Sys2Proof/Machine/AcceptKey.lean ====
section
/-! DEFINITION. The accept-key unit's command, ACCEPT (44_accept_sha1.md R93, R94, R99). -/

namespace Sys2Proof.Machine

/-- `M = OP_DATA ++ GUID`, the key's bytes exactly as the host supplies them (R94). -/
def acceptMessage (key : Bytes) : Bytes := key ++ Config.guid

/-- "A message with 8*n >= 2^64 cannot be padded" (R95). -/
def unpaddable (m : Bytes) : Bool := decide (0x10000000000000000 ≤ 8 * m.length)

/-- ACCEPT (R99): the core runs in one EXEC step (R97), and RES_DATA takes the 28 ASCII characters. -/
def execAccept (s : State) : Result :=
  let m := acceptMessage s.ops.data
  if unpaddable m then .refused .messageUnpaddable
  else
    let r := sha1Run m s.sha
    complete { s.res with data := base64 (digest r) } { s with sha := r }

/-- `compute_accept(key)` as a function (44_accept_sha1.md, introduction). -/
def computeAccept (key : Bytes) : Bytes := base64 (sha1 (acceptMessage key))

end Sys2Proof.Machine
end

