-- ==== Sys2Proof/Machine/HeaderCodec.lean ====
section
/-! DEFINITION. The Frame Header Codec: HENC and HDEC (40_header_codec.md). -/

namespace Sys2Proof.Machine

/-- HENC (R68): `RES_DATA <- be16(PackHdr(FIN, OPC, MSK, LEN7))`. No check of the opcode or of LEN7. -/
def execHenc (fin : Bool) (opc : BitVec 4) (msk : Bool) (len7 : BitVec 7) (s : State) : Result :=
  complete { s.res with data := be16 (packHdr fin opc msk len7) } s

/-- HDEC (R69): the fields of OP_HDR, RSV reported and not rejected. -/
def execHdec (s : State) : Result :=
  let f := unpackHdr s.ops.hdr
  complete { s.res with fin := f.fin, rsv := f.rsv, opc := f.opc, mask := f.mask, len7 := f.len7 } s

end Sys2Proof.Machine
end

