-- ==== Sys2Proof/Machine/LengthCodec.lean ====
section
/-! DEFINITION. The Length Field Codec: LenEnc, ResolveLen, LENC, LDECB and LDECS (41_length_codec.md). -/

namespace Sys2Proof.Machine

/-- `LenEnc(L)` (R71); `none` is `ProtocolError`: L >= 2^63 cannot be carried. -/
def lenEnc (l : Nat) : Option (BitVec 7 × Bytes) :=
  if Config.wireLenBound ≤ l then none
  else if l ≤ 125 then some (BitVec.ofNat 7 l, [])
  else if l ≤ 65535 then some (126, be16 (BitVec.ofNat 16 l))
  else some (127, be64 (BitVec.ofNat 64 l))

/-- How many extended-length bytes a 7-bit slot announces (30_encoding.md R53, R55). -/
def extBytes (len7 : BitVec 7) : Nat :=
  if len7 = 126 then 2 else if len7 = 127 then 8 else 0

/-- `ResolveLen(len7)` (R72) on the `extBytes len7` bytes pulled; `none` is `ProtocolError`. -/
def resolveLen (len7 : BitVec 7) (ext : Bytes) : Option (BitVec 64) :=
  if len7 = 126 then
    let v := frombe ext
    if v < 126 then none else some (BitVec.ofNat 64 v)
  else if len7 = 127 then
    let v := frombe ext
    if Config.wireLenBound ≤ v then none
    else if v < 65536 then none
    else some (BitVec.ofNat 64 v)
  else some (len7.setWidth 64)

/-- LENC (R73): the slot and the extension of OP_LEN, or `ProtocolError`. -/
def execLenc (s : State) : Result :=
  match lenEnc s.ops.len.toNat with
  | none => raise .protocol s
  | some (l7, ext) => complete { s.res with len7 := l7, data := ext } s

/-- The end of a length decode: `RES_LEN <- v; RES_CONSUMED <- W_CNT` (R74). -/
def finishLength (len7 : BitVec 7) (ext : Bytes) (s : State) : Result :=
  match resolveLen len7 ext with
  | none => raise .protocol s
  | some v => complete { s.res with len := v, consumed := s.work.cnt } s

/-- `W_CNT <- 0`, the first line of every decode (R74, 43_frame_codec.md R83). -/
def clearCount (s : State) : State := { s with work := { s.work with cnt := 0 } }

/-- LDECB (R74): the extension comes from OP_BUF[0]. -/
def execLdecb (len7 : BitVec 7) (s : State) : Result :=
  onBuffer (extBytes len7) (clearCount s) (finishLength len7)

/-- LDECS (R74): at issue it enters its single phase F_EXT; in F_EXT it pulls the extension from STRM, or holds. -/
def execLdecs (len7 : BitVec 7) (s : State) : Result :=
  match s.phase with
  | .fExt => onStream (extBytes len7) s (finishLength len7)
  | .idle | .exec | .fHdr | .fKey | .fPay | .fPost => enterPhase .fExt (extBytes len7) (clearCount s)

end Sys2Proof.Machine
end

