-- ==== Sys2Proof/Machine/Masking.lean ====
section
/-! DEFINITION. The Masking Engine: ApplyMask and MASK (42_masking.md). -/

namespace Sys2Proof.Machine

/-- Payload byte j, counted from `j`, is xored with `k[j mod 4]` (R76). -/
def xorFrom (k : MaskKey) : Nat → Bytes → Bytes
  | _, [] => []
  | j, b :: bs => (b ^^^ k.at j) :: xorFrom k (j + 1) bs

/-- The mask of a whole payload by a key that has its 4 bytes (R76). -/
def xorMask (k : MaskKey) (p : Bytes) : Bytes := xorFrom k 0 p

/-- `ApplyMask(p, k)` (R76); `none` is `InvalidKeyLength`, whatever the payload. -/
def applyMask (p k : Bytes) : Option Bytes :=
  match MaskKey.ofBytes? k with
  | none => none
  | some key => some (xorMask key p)

/-- MASK (R77). -/
def execMask (s : State) : Result :=
  match applyMask s.ops.data s.ops.key with
  | none => raise .keyLength s
  | some out => complete { s.res with data := out } s

end Sys2Proof.Machine
end

