-- ==== Sys2Proof/Machine/Utf8.lean ====
section
/-! DEFINITION. UTF-8 well-formedness (43_frame_codec.md R90) and UTF8V (R91). -/

namespace Sys2Proof.Machine

/-- `lo <= b <= hi`, a byte range of the table of R90 (inclusive). -/
def inRange (lo hi : Nat) (b : Byte) : Bool := decide (lo ≤ b.toNat) && decide (b.toNat ≤ hi)

/-- A continuation byte, 0x80..0xBF. -/
def isCont (b : Byte) : Bool := inRange 0x80 0xBF b

/-- The rows of two bytes (R90). -/
def utf8Two (a b : Byte) : Bool := inRange 0xC2 0xDF a && isCont b

/-- The rows of three bytes (R90). -/
def utf8Three (a b c : Byte) : Bool :=
  (inRange 0xE0 0xE0 a && inRange 0xA0 0xBF b || inRange 0xE1 0xEC a && isCont b ||
    inRange 0xED 0xED a && inRange 0x80 0x9F b || inRange 0xEE 0xEF a && isCont b) && isCont c

/-- The rows of four bytes (R90). -/
def utf8Four (a b c d : Byte) : Bool :=
  (inRange 0xF0 0xF0 a && inRange 0x90 0xBF b || inRange 0xF1 0xF3 a && isCont b ||
    inRange 0xF4 0xF4 a && inRange 0x80 0x8F b) && isCont c && isCont d

/-- `Utf8Valid(s)` (R90): the sequence is read one well-formed sequence at a time. The first byte decides how many
bytes the sequence has, so there is one way to read it. -/
def utf8Valid : Bytes → Bool
  | [] => true
  | a :: r0 =>
    if inRange 0x00 0x7F a then utf8Valid r0
    else match r0 with
      | [] => false
      | b :: r1 =>
        if utf8Two a b then utf8Valid r1
        else match r1 with
          | [] => false
          | c :: r2 =>
            if utf8Three a b c then utf8Valid r2
            else match r2 with
              | [] => false
              | d :: r3 => utf8Four a b c d && utf8Valid r3

/-- UTF8V (R91). -/
def execUtf8v (s : State) : Result :=
  if utf8Valid s.ops.data then complete { s.res with data := s.ops.data } s
  else raise .encoding s

end Sys2Proof.Machine
end

