-- ==== Sys2Proof/Machine/FrameCodec.lean ====
section
/-! DEFINITION. The Frame Codec: FENC (43_frame_codec.md R80 to R82), and the one decode algorithm of R83 that FDECB
(buffer mode, R84) and FDECS (stream mode, R85) share.

Each phase of R83 is one function over the bytes it pulled. What follows a phase that needs more bytes is an argument
`next`, given the phase that is to read them: buffer mode goes on at once, stream mode ends the engine's step there.
Phases a frame does not need are skipped inside the phase before them (10_state.md R19). -/

namespace Sys2Proof.Machine

/-! ## FENC -/

/-- The frame of FENC (R80): header, extended length, and the body (with the key in front when masked). -/
def frameBytes (fin : Bool) (opc : BitVec 4) (msk : Bool) (l7 : BitVec 7) (ext body : Bytes) : Bytes :=
  be16 (packHdr fin opc msk l7) ++ ext ++ body

/-- The masked body: `k ++ ApplyMask(P, k)` (R80). -/
def maskedBody (k : MaskKey) (p : Bytes) : Bytes := k.toBytes ++ xorMask k p

/-- FENC (R80): LenEnc, then the key (supplied and length-checked, or drawn), then the frame. -/
def execFenc (opc : BitVec 4) (fin msk ksup : Bool) (s : State) : Result :=
  match lenEnc s.ops.data.length with
  | none => raise .protocol s
  | some (l7, ext) =>
    if msk then
      if ksup then
        match MaskKey.ofBytes? s.ops.key with
        | none => raise .keyLength s
        | some k => complete { s.res with data := frameBytes fin opc true l7 ext (maskedBody k s.ops.data) } s
      else
        let drawn := draw4 s
        complete { s.res with data := frameBytes fin opc true l7 ext (maskedBody drawn.1 s.ops.data) } drawn.2
    else complete { s.res with data := frameBytes fin opc false l7 ext s.ops.data } s

/-! ## The phases of a decode -/

/-- The close split (R83, R86) of a payload of `plen` bytes: the code, RES_CLOSE_V, and the logical payload; `none` is
the `ProtocolError` of a 1-byte close payload. -/
def closeSplit (opc : BitVec 4) (plen : BitVec 64) (pay : Bytes) : Option (BitVec 16 × Bool × Bytes) :=
  if opc = 8 ∧ plen ≠ 0 then
    if plen = 1 then none
    else some (BitVec.ofNat 16 (frombe (pay.take 2)), true, pay.drop 2)
  else some (0, false, pay)

/-- "the frame's opcode is text (1)" and a text result is requested (R87): the payload must be well-formed UTF-8. -/
def textRefused (txt : Bool) (opc : BitVec 4) (pay : Bytes) : Bool := txt && opc == 1 && !utf8Valid pay

/-- The result registers of a frame decode (R83): the opcode and FIN as received, the logical payload, the length before any
close split, the close code and the bytes consumed. MASK and RSV are not results. -/
def decodedResults (w : WorkRegs) (code : BitVec 16) (split : Bool) (pay : Bytes) (r : ResRegs) : ResRegs :=
  { r with
    opc := w.opc
    fin := w.fin
    data := pay
    len := w.plen
    close := code
    closeV := split
    consumed := w.cnt }

/-- F_POST and completion (R83): close split, text check, results. -/
def finishFrame (txt : Bool) (s : State) : Result :=
  match closeSplit s.work.opc s.work.plen s.work.pay with
  | none => raise .protocol s
  | some (code, split, pay) =>
    let s' : State := { s with work := { s.work with pay := pay } }
    if textRefused txt s.work.opc pay then raise .encoding s'
    else complete (decodedResults s.work code split pay s.res) s'

/-- F_PAY (R83): the payload, unmasked when MASK = 1, then F_POST. -/
def payPhase (txt : Bool) (raw : Bytes) (s : State) : Result :=
  finishFrame txt
    { s with work := { s.work with pay := if s.work.mask then xorMask s.work.key raw else raw } }

/-- After the key: F_PAY, or straight to F_POST when the length is 0 (R85). -/
def afterKey (next : Phase → State → Result) (txt : Bool) (s : State) : Result :=
  if s.work.plen = 0 then finishFrame txt { s with work := { s.work with pay := [] } }
  else next .fPay s

/-- F_KEY (R83): the 4 key bytes in wire order. -/
def keyPhase (next : Phase → State → Result) (txt : Bool) (bs : Bytes) (s : State) : Result :=
  afterKey next txt { s with work := { s.work with key := MaskKey.ofPulled bs } }

/-- Once the length is resolved: the refusal of R89, then F_KEY when MASK = 1, whatever the length
(90_conflicts.md C2). -/
def afterLength (next : Phase → State → Result) (txt : Bool) (plen : BitVec 64) (s : State) : Result :=
  if s.maxPayload.val < plen.toNat then .refused .payloadOverCapacity
  else
    let s' : State := { s with work := { s.work with plen := plen } }
    if s.work.mask then next .fKey s' else afterKey next txt s'

/-- F_EXT (R83): ResolveLen of the sentinel and its extension. -/
def extPhase (next : Phase → State → Result) (txt : Bool) (ext : Bytes) (s : State) : Result :=
  match resolveLen s.work.len7 ext with
  | none => raise .protocol s
  | some v => afterLength next txt v s

/-- F_HDR (R83), once the header is unpacked: RSV is kept and ignored; LEN7 of 125 or less is the length itself. -/
def headerPhase (next : Phase → State → Result) (txt : Bool) (f : HeaderFields) (s : State) : Result :=
  let s' : State :=
    { s with work := { s.work with fin := f.fin, rsv := f.rsv, opc := f.opc, mask := f.mask, len7 := f.len7 } }
  if extBytes f.len7 = 0 then afterLength next txt (f.len7.setWidth 64) s' else next .fExt s'

/-- `W_HDR <- frombe(Pull(2))` (R83). -/
def latchHeader (h : BitVec 16) (s : State) : State := { s with work := { s.work with hdr := h } }

/-- F_HDR from the 2 bytes pulled. -/
def readHeader (next : Phase → State → Result) (txt : Bool) (bs : Bytes) (s : State) : Result :=
  headerPhase next txt (unpackHdr (headerOfBytes bs)) (latchHeader (headerOfBytes bs) s)

/-- How many bytes a reading phase needs (20_memory.md R44, R85). -/
def phaseNeed (ph : Phase) (w : WorkRegs) : Nat :=
  match ph with
  | .fHdr => 2
  | .fExt => extBytes w.len7
  | .fKey => 4
  | .fPay => w.plen.toNat
  | .idle | .exec | .fPost => 0

/-! ## Buffer mode -/

/-- F_PAY in buffer mode. -/
def bufferPay (txt : Bool) (s : State) : Result := onBuffer (phaseNeed .fPay s.work) s (payPhase txt)

/-- F_KEY in buffer mode; only F_PAY can follow it. -/
def bufferKey (txt : Bool) (s : State) : Result :=
  onBuffer (phaseNeed .fKey s.work) s (keyPhase (fun _ => bufferPay txt) txt)

/-- What follows the length in buffer mode. -/
def bufferAfterLength (txt : Bool) (ph : Phase) (s : State) : Result :=
  match ph with
  | .fKey => bufferKey txt s
  | .fPay | .idle | .exec | .fHdr | .fExt | .fPost => bufferPay txt s

/-- F_EXT in buffer mode. -/
def bufferExt (txt : Bool) (s : State) : Result :=
  onBuffer (phaseNeed .fExt s.work) s (extPhase (bufferAfterLength txt) txt)

/-- What follows the header in buffer mode. -/
def bufferNext (txt : Bool) (ph : Phase) (s : State) : Result :=
  match ph with
  | .fExt => bufferExt txt s
  | .fKey | .fPay | .idle | .exec | .fHdr | .fPost => bufferAfterLength txt ph s

/-- FDECB (R83, R84): the whole algorithm on OP_BUF in one step; bytes after the frame are not read. -/
def execFdecb (txt : Bool) (s : State) : Result :=
  onBuffer (phaseNeed .fHdr s.work) (clearCount s) (readHeader (bufferNext txt) txt)

/-! ## Stream mode -/

/-- What follows a phase in stream mode: the engine's step ends in the next phase, holding if its bytes are not all
there (R85). -/
def streamNext (ph : Phase) (s : State) : Result := enterPhase ph (phaseNeed ph s.work) s

/-- FDECS (R83, R85): at issue it enters F_HDR; then one engine step per phase, each enabled when STRM holds the bytes
the phase needs. -/
def execFdecs (txt : Bool) (s : State) : Result :=
  match s.phase with
  | .idle | .exec => streamNext .fHdr (clearCount s)
  | .fHdr => onStream (phaseNeed .fHdr s.work) s (readHeader streamNext txt)
  | .fExt => onStream (phaseNeed .fExt s.work) s (extPhase streamNext txt)
  | .fKey => onStream (phaseNeed .fKey s.work) s (keyPhase streamNext txt)
  | .fPay => onStream (phaseNeed .fPay s.work) s (payPhase txt)
  | .fPost => finishFrame txt s

end Sys2Proof.Machine
end

