-- ==== Sys2Proof/Machine/FrameHeaders.lean ====
section
/-! DEFINITION. The sixteen base headers (30_encoding.md R52, R56): what the engine does with a base header that FDECS has
pulled in phase F_HDR (43_frame_codec.md R83, R85). The two bytes are already pulled and W_HDR latched
(Sys2Proof/Machine/Engine.lean); TXT is a bit of the command in flight (notes/assumptions/11.md). -/

namespace Sys2Proof.Machine

/-- The F_HDR phase for a header with opcode `opc` (R83): the W_* fields, the inline length when LEN7 is 125 or less, then
the next phase the frame needs. "WSCODEC applies no rule by class": only close and text are treated in F_POST (R86, R87),
and F_POST reads the opcode this phase stores. -/
def frameHeader (opc : BitVec 4) (fin : Bool) (rsv : BitVec 3) (msk : Bool) (len7 : BitVec 7) (s : State) : Result :=
  headerPhase streamNext (cmdTxt s.cmd) { fin := fin, rsv := rsv, opc := opc, mask := msk, len7 := len7 } s

/-- Frame opcode 0, continuation: payload passed through (R83). -/
def execWsCont (fin : Bool) (rsv : BitVec 3) (msk : Bool) (len7 : BitVec 7) (s : State) : Result :=
  frameHeader 0 fin rsv msk len7 s

/-- Frame opcode 1, text: UTF-8 checked if a text result is requested (R87). -/
def execWsText (fin : Bool) (rsv : BitVec 3) (msk : Bool) (len7 : BitVec 7) (s : State) : Result :=
  frameHeader 1 fin rsv msk len7 s

/-- Frame opcode 2, binary: payload passed through (R83). -/
def execWsBinary (fin : Bool) (rsv : BitVec 3) (msk : Bool) (len7 : BitVec 7) (s : State) : Result :=
  frameHeader 2 fin rsv msk len7 s

/-- Frame opcode 3, reserved: returned as an opaque value, payload passed through (R88). -/
def execWsRsv3 (fin : Bool) (rsv : BitVec 3) (msk : Bool) (len7 : BitVec 7) (s : State) : Result :=
  frameHeader 3 fin rsv msk len7 s

/-- Frame opcode 4, reserved: returned as an opaque value, payload passed through (R88). -/
def execWsRsv4 (fin : Bool) (rsv : BitVec 3) (msk : Bool) (len7 : BitVec 7) (s : State) : Result :=
  frameHeader 4 fin rsv msk len7 s

/-- Frame opcode 5, reserved: returned as an opaque value, payload passed through (R88). -/
def execWsRsv5 (fin : Bool) (rsv : BitVec 3) (msk : Bool) (len7 : BitVec 7) (s : State) : Result :=
  frameHeader 5 fin rsv msk len7 s

/-- Frame opcode 6, reserved: returned as an opaque value, payload passed through (R88). -/
def execWsRsv6 (fin : Bool) (rsv : BitVec 3) (msk : Bool) (len7 : BitVec 7) (s : State) : Result :=
  frameHeader 6 fin rsv msk len7 s

/-- Frame opcode 7, reserved: returned as an opaque value, payload passed through (R88). -/
def execWsRsv7 (fin : Bool) (rsv : BitVec 3) (msk : Bool) (len7 : BitVec 7) (s : State) : Result :=
  frameHeader 7 fin rsv msk len7 s

/-- Frame opcode 8, close: close reason split off (R86). -/
def execWsClose (fin : Bool) (rsv : BitVec 3) (msk : Bool) (len7 : BitVec 7) (s : State) : Result :=
  frameHeader 8 fin rsv msk len7 s

/-- Frame opcode 9, ping: opaque pass-through, no reply (R88). -/
def execWsPing (fin : Bool) (rsv : BitVec 3) (msk : Bool) (len7 : BitVec 7) (s : State) : Result :=
  frameHeader 9 fin rsv msk len7 s

/-- Frame opcode 10, pong: payload passed through (R83). -/
def execWsPong (fin : Bool) (rsv : BitVec 3) (msk : Bool) (len7 : BitVec 7) (s : State) : Result :=
  frameHeader 10 fin rsv msk len7 s

/-- Frame opcode 11, reserved: returned as an opaque value, payload passed through (R88). -/
def execWsRsv11 (fin : Bool) (rsv : BitVec 3) (msk : Bool) (len7 : BitVec 7) (s : State) : Result :=
  frameHeader 11 fin rsv msk len7 s

/-- Frame opcode 12, reserved: returned as an opaque value, payload passed through (R88). -/
def execWsRsv12 (fin : Bool) (rsv : BitVec 3) (msk : Bool) (len7 : BitVec 7) (s : State) : Result :=
  frameHeader 12 fin rsv msk len7 s

/-- Frame opcode 13, reserved: returned as an opaque value, payload passed through (R88). -/
def execWsRsv13 (fin : Bool) (rsv : BitVec 3) (msk : Bool) (len7 : BitVec 7) (s : State) : Result :=
  frameHeader 13 fin rsv msk len7 s

/-- Frame opcode 14, reserved: returned as an opaque value, payload passed through (R88). -/
def execWsRsv14 (fin : Bool) (rsv : BitVec 3) (msk : Bool) (len7 : BitVec 7) (s : State) : Result :=
  frameHeader 14 fin rsv msk len7 s

/-- Frame opcode 15, reserved: returned as an opaque value, payload passed through (R88). -/
def execWsRsv15 (fin : Bool) (rsv : BitVec 3) (msk : Bool) (len7 : BitVec 7) (s : State) : Result :=
  frameHeader 15 fin rsv msk len7 s

end Sys2Proof.Machine
end

