-- ==== Sys2Proof/Machine/Dispatch.lean ====
section
/-! DEFINITION. One arm per constructor of Instr: each a call of its meaning. -/

namespace Sys2Proof.Machine

def exec (i : Instr) (s : State) : Host.Outcome State Fault Refusal :=
  match i with
  | .henc fin opc msk len7 => Sys2Proof.Machine.execHenc fin opc msk len7 s
  | .hdec => Sys2Proof.Machine.execHdec s
  | .lenc => Sys2Proof.Machine.execLenc s
  | .ldecb len7 => Sys2Proof.Machine.execLdecb len7 s
  | .ldecs len7 => Sys2Proof.Machine.execLdecs len7 s
  | .mask => Sys2Proof.Machine.execMask s
  | .fenc opc fin msk ksup => Sys2Proof.Machine.execFenc opc fin msk ksup s
  | .fdecb txt => Sys2Proof.Machine.execFdecb txt s
  | .fdecs txt => Sys2Proof.Machine.execFdecs txt s
  | .utf8v => Sys2Proof.Machine.execUtf8v s
  | .accept => Sys2Proof.Machine.execAccept s
  | .wsCont fin rsv msk len7 => Sys2Proof.Machine.execWsCont fin rsv msk len7 s
  | .wsText fin rsv msk len7 => Sys2Proof.Machine.execWsText fin rsv msk len7 s
  | .wsBinary fin rsv msk len7 => Sys2Proof.Machine.execWsBinary fin rsv msk len7 s
  | .wsRsv3 fin rsv msk len7 => Sys2Proof.Machine.execWsRsv3 fin rsv msk len7 s
  | .wsRsv4 fin rsv msk len7 => Sys2Proof.Machine.execWsRsv4 fin rsv msk len7 s
  | .wsRsv5 fin rsv msk len7 => Sys2Proof.Machine.execWsRsv5 fin rsv msk len7 s
  | .wsRsv6 fin rsv msk len7 => Sys2Proof.Machine.execWsRsv6 fin rsv msk len7 s
  | .wsRsv7 fin rsv msk len7 => Sys2Proof.Machine.execWsRsv7 fin rsv msk len7 s
  | .wsClose fin rsv msk len7 => Sys2Proof.Machine.execWsClose fin rsv msk len7 s
  | .wsPing fin rsv msk len7 => Sys2Proof.Machine.execWsPing fin rsv msk len7 s
  | .wsPong fin rsv msk len7 => Sys2Proof.Machine.execWsPong fin rsv msk len7 s
  | .wsRsv11 fin rsv msk len7 => Sys2Proof.Machine.execWsRsv11 fin rsv msk len7 s
  | .wsRsv12 fin rsv msk len7 => Sys2Proof.Machine.execWsRsv12 fin rsv msk len7 s
  | .wsRsv13 fin rsv msk len7 => Sys2Proof.Machine.execWsRsv13 fin rsv msk len7 s
  | .wsRsv14 fin rsv msk len7 => Sys2Proof.Machine.execWsRsv14 fin rsv msk len7 s
  | .wsRsv15 fin rsv msk len7 => Sys2Proof.Machine.execWsRsv15 fin rsv msk len7 s

end Sys2Proof.Machine
end

