-- ==== Sys2Proof/Machine/Engine.lean ====
section
/-! DEFINITION. The engine's step and the host's steps (10_state.md R15, R19, R30; 70_reset_and_hazards.md R121), and which
agent moves. -/

namespace Sys2Proof.Machine

/-- The base header of a stream decode is at the head of STRM. -/
def fetchedHeader (s : State) : BitVec 16 := headerOfBytes (s.strm.take 2)

/-- `W_HDR <- frombe(Pull(2))` in stream mode (43_frame_codec.md R83). -/
def fetchHeader (s : State) : State := latchHeader (fetchedHeader s) (pullStream 2 s)

/-- One engine step of an FDECS in flight (R19, R85): in F_HDR with its two bytes there, the base header is pulled and run;
in the other phases, and while it holds, the command's own meaning runs. -/
def engineFrame (txt : Bool) (s : State) : Result :=
  match s.phase with
  | .fHdr => if s.strm.length < 2 then exec (.fdecs txt) s else exec (decodeHeader (fetchedHeader s)) (fetchHeader s)
  | .fExt | .fKey | .fPay | .fPost => exec (.fdecs txt) s
  | .idle | .exec => .fault .strayPhase

/-- One engine step of an LDECS in flight (R19): its single phase is F_EXT. -/
def engineLength (len7 : BitVec 7) (s : State) : Result :=
  match s.phase with
  | .fExt => exec (.ldecs len7) s
  | .idle | .exec | .fHdr | .fKey | .fPay | .fPost => .fault .strayPhase

/-- The engine's move (R19). With no command in flight it has none: the state stays (notes/assumptions/4.md). A command in
flight between steps is a stream decode (R19), so any other CMD is a state no run reaches (notes/assumptions/13.md). -/
def engineStep (s : State) : Result :=
  if s.status.busy then
    match decodeCommand s.cmd with
    | .ok (.fdecs txt) => engineFrame txt s
    | .ok (.ldecs len7) => engineLength len7 s
    | .ok _ => .fault .strayPhase
    | .error _ => .fault .strayPhase
  else .next s

/-- The command in CMD, just latched, runs (R19); an illegal word raises `IllegalCommand` before any operand is read
(30_encoding.md R62). -/
def runIssued (s : State) : Result :=
  match decodeCommand s.cmd with
  | .ok i => exec i s
  | .error _ => raise .illegalCommand s

/-- The host's issue step (R30) and the command's first engine step, in one (R18, R19; notes/assumptions/1.md). An operand
longer than its register holds cannot be presented (R21; notes/assumptions/10.md). -/
def issueStep (p : PortCmd) (s : State) : Result :=
  if p.ops.fits s.maxPayload.val then runIssued (latch p s) else .refused .operandOverCapacity

/-- The move of the agent at the head of the schedule; the engine moves when the schedule is empty, and while the host's
issue waits for `ready = not BUSY` (R28, R30; notes/assumptions/2.md, 3.md). -/
def agentStep (s : State) : Result :=
  match s.inputs with
  | [] => engineStep s
  | .engine :: rest => engineStep { s with inputs := rest }
  | .issue p :: rest => if s.status.busy then engineStep s else issueStep p { s with inputs := rest }
  | .arrive bs :: rest => .next (arriveBytes bs { s with inputs := rest })
  | .take n :: rest => .next (takeBytes n { s with inputs := rest })
  | .reset :: rest => .next (resetRegs { s with inputs := rest })

/-- A command word on the command port, with the operands the registers already hold: the next step issues it. -/
def presentCommand (w : BitVec 32) (s : State) : State :=
  { s with
    status := statusHold { s.status with busy := false } false
    phase := .idle
    inputs := .issue ⟨w, s.ops⟩ :: s.inputs }

/-- The word of FDECS with TXT = 0 (30_encoding.md R66). -/
def fdecsWord : BitVec 32 := 0x00080007

/-- A base header at the head of STRM of an FDECS just issued: the engine's next step reads and runs it. -/
def presentHeader (h : BitVec 16) (s : State) : State :=
  let s' := latch ⟨fdecsWord, s.ops⟩ s
  { clearCount s' with phase := .fHdr, strm := be16 h ++ s.strm.drop 2, inputs := .engine :: s.inputs }

end Sys2Proof.Machine
end

