-- ==== Sys2Proof/Machine/Step.lean ====
section
/-! DEFINITION. One step of the machine, and how a word of the opcode table is put where the step takes it. -/

namespace Sys2Proof.Machine

/-- One step: the move of the agent that the schedule names. -/
def step (s : State) : Host.Outcome State Fault Refusal := agentStep s

/-- The state in which the very next step runs the word: a command word waits on the command port of an idle instance, a
base header stands at the head of the stream of an FDECS in phase F_HDR (notes/assumptions/12.md). -/
def State.withFetchWord (s : State) (nbits w : Nat) : State :=
  match tableCode nbits w with
  | some (.command cw) => presentCommand cw s
  | some (.header h) => presentHeader h s
  | none => s

end Sys2Proof.Machine
end

