-- ==== Sys2Proof/Machine/Assembler.lean ====
section
/-! DEFINITION. The command assembly syntax and the pseudo-commands of 30_encoding.md R64 and R65: each line gives the
command word and the operands the host puts on the command port. What the operands a line does not name hold is the model's
choice (`unnamedOperands`, notes/assumptions/24.md). -/

namespace Sys2Proof.Machine

/-- DESIGN CHOICE: what the port carries for the operands an assembly line does not name. An issue latches every operand
register (R30) and R64 gives a default to omitted 1-bit fields only; the model puts the cleared values there
(notes/assumptions/24.md). No command reads an operand that its line does not name. -/
abbrev unnamedOperands : OpRegs := .cleared

/-- `HENC fin=f, opc=o, mask=m, len7=n` (R64). -/
def asmHenc (fin : Bool) (opc : BitVec 4) (msk : Bool) (len7 : BitVec 7) : PortCmd :=
  { cw := commandWord false len7 false false msk fin opc 0x1, ops := unnamedOperands }

/-- `HDEC hdr=0xHHHH`. -/
def asmHdec (hdr : BitVec 16) : PortCmd := { cw := 0x2, ops := { unnamedOperands with hdr := hdr } }

/-- `LENC len=L`. -/
def asmLenc (len : BitVec 64) : PortCmd := { cw := 0x3, ops := { unnamedOperands with len := len } }

/-- `LDECB len7=n, buf=<bytes>`. -/
def asmLdecb (len7 : BitVec 7) (buf : Bytes) : PortCmd :=
  { cw := commandWord false len7 false false false false 0 0x4, ops := { unnamedOperands with buf := buf } }

/-- `LDECS len7=n`. -/
def asmLdecs (len7 : BitVec 7) : PortCmd :=
  { cw := commandWord true len7 false false false false 0 0x4, ops := unnamedOperands }

/-- `MASK data=<bytes>, key=<bytes>`. -/
def asmMask (data key : Bytes) : PortCmd := { cw := 0x5, ops := { unnamedOperands with data := data, key := key } }

/-- `FENC opc=o, fin=f, mask=m[, key=<bytes>], data=<bytes>`: KSUP = 1 iff `key=` is given. Without
`key=`, OP_KEY is [], the model's choice (notes/assumptions/24.md). -/
def asmFenc (opc : BitVec 4) (fin msk : Bool) (key : Option Bytes) (data : Bytes) : PortCmd :=
  { cw := commandWord false 0 false key.isSome msk fin opc 0x6
    ops := { unnamedOperands with data := data, key := key.getD [] } }

/-- `FDECB [text,] buf=<bytes>`. -/
def asmFdecb (txt : Bool) (buf : Bytes) : PortCmd :=
  { cw := commandWord false 0 txt false false false 0 0x7, ops := { unnamedOperands with buf := buf } }

/-- `FDECS [text]`. -/
def asmFdecs (txt : Bool) : PortCmd := { cw := commandWord true 0 txt false false false 0 0x7, ops := unnamedOperands }

/-- `UTF8V data=<bytes>`. -/
def asmUtf8v (data : Bytes) : PortCmd := { cw := 0x8, ops := { unnamedOperands with data := data } }

/-- `ACCEPT key="..."`: `OP_DATA = ascii(...)`. -/
def asmAccept (key : Bytes) : PortCmd := { cw := 0x9, ops := { unnamedOperands with data := key } }

/-- `CLOSE code=c, reason=<bytes>[, mask=m][, key=<bytes>]` (R65). -/
def pseudoClose (code : BitVec 16) (reason : Bytes) (msk : Bool) (key : Option Bytes) : PortCmd :=
  asmFenc 8 true msk key (be16 code ++ reason)

/-- `TEXT data=<bytes>[, fin=f][, mask=m][, key=<bytes>]` (R65). -/
def pseudoText (data : Bytes) (fin msk : Bool) (key : Option Bytes) : PortCmd := asmFenc 1 fin msk key data

/-- `BINARY data=<bytes>[, fin=f][, mask=m][, key=<bytes>]` (R65). -/
def pseudoBinary (data : Bytes) (fin msk : Bool) (key : Option Bytes) : PortCmd := asmFenc 2 fin msk key data

/-- `PING data=<bytes>[, mask=m][, key=<bytes>]` (R65). -/
def pseudoPing (data : Bytes) (msk : Bool) (key : Option Bytes) : PortCmd := asmFenc 9 true msk key data

/-- `PONG data=<bytes>[, mask=m][, key=<bytes>]` (R65). -/
def pseudoPong (data : Bytes) (msk : Bool) (key : Option Bytes) : PortCmd := asmFenc 10 true msk key data

end Sys2Proof.Machine
end

