-- ==== Sys2Proof/Machine/HostView.lean ====
section
/-! DEFINITION. What the host reads on the status/result port (10_state.md R28, R29). -/

namespace Sys2Proof.Machine

/-- "Readable by the host at any time: STATUS, ERRCODE, the result registers" (R29), and the command port's `ready`
(R28). PHASE, CMD, the operand registers and the working registers are not in it. -/
structure HostView where
  ready : Bool
  status : Status
  errcode : BitVec 4
  res : ResRegs
deriving DecidableEq, Repr

/-- The read of the status/result port; reading changes nothing. `ready = not BUSY` (R28). -/
def State.hostView (s : State) : HostView :=
  { ready := !s.status.busy, status := s.status, errcode := s.errcode, res := s.res }

end Sys2Proof.Machine
end

