-- ==== Sys2Proof/Machine/HostHandshake.lean ====
section
/-! DEFINITION. The handshake text on the host side (45_handshake_host.md): functions of the host's software around ACCEPT.
"No rule in this file is a behaviour of the WSCODEC engine, and no command runs it" (notes/assumptions/21.md). -/

namespace Sys2Proof.Machine

/-- `ascii("text")` (00_scope.md R10). -/
def ascii (cs : List Char) : Bytes := cs.map fun c => BitVec.ofNat 8 c.toNat

/-- Carriage return and line feed. -/
def charCr : Byte := 0x0D
def charLf : Byte := 0x0A
def crlf : Bytes := [charCr, charLf]

/-! ## The built texts -/

def textGet : Bytes := ascii ['G', 'E', 'T', ' ', '/', ' ', 'H', 'T', 'T', 'P', '/', '1', '.', '1']
def textHost : Bytes := ascii ['H', 'o', 's', 't', ':', ' ']
def textUpgrade : Bytes :=
  ascii (['U', 'p', 'g', 'r', 'a', 'd', 'e', ':', ' '] ++ ['w', 'e', 'b', 's', 'o', 'c', 'k', 'e', 't'])
def textConnection : Bytes :=
  ascii (['C', 'o', 'n', 'n', 'e', 'c', 't', 'i', 'o', 'n', ':', ' '] ++ ['U', 'p', 'g', 'r', 'a', 'd', 'e'])
def textSec : Bytes := ascii ['S', 'e', 'c', '-', 'W', 'e', 'b', 'S', 'o', 'c', 'k', 'e', 't', '-']
/-- "The protocol version sent is 13" (R104). -/
def textVersion : Bytes := textSec ++ ascii ['V', 'e', 'r', 's', 'i', 'o', 'n', ':', ' ', '1', '3']
/-- The header name `Sec-WebSocket-Key`. -/
def nameKey : Bytes := textSec ++ ascii ['K', 'e', 'y']
/-- The header name `Sec-WebSocket-Accept`. -/
def nameAccept : Bytes := textSec ++ ascii ['A', 'c', 'c', 'e', 'p', 't']
def textSwitching : Bytes :=
  ascii (['H', 'T', 'T', 'P', '/', '1', '.', '1', ' ', '1', '0', '1', ' '] ++
    ['S', 'w', 'i', 't', 'c', 'h', 'i', 'n', 'g', ' '] ++ ['P', 'r', 'o', 't', 'o', 'c', 'o', 'l', 's'])
/-- `: ` between a name and its value. -/
def textColon : Bytes := ascii [':', ' ']

/-- `build_request(host, key)` (R103). -/
def buildRequest (host key : Bytes) : Bytes :=
  textGet ++ crlf ++ textHost ++ host ++ crlf ++ textUpgrade ++ crlf ++ textConnection ++ crlf ++ textVersion ++ crlf ++
    nameKey ++ textColon ++ key ++ crlf ++ crlf

/-- `build_response(accept_value)` (R107). -/
def buildResponse (accept : Bytes) : Bytes :=
  textSwitching ++ crlf ++ textUpgrade ++ crlf ++ textConnection ++ crlf ++ nameAccept ++ textColon ++ accept ++ crlf ++
    crlf

/-- The client key as sent: base64 of the 16 bytes of `CLIENT_KEY` (R102). -/
def clientKeyText : Bytes := base64 Config.clientKey.toList

/-! ## The parser -/

/-- `split raw_bytes at each LF` (R105). -/
def splitLf : Bytes → List Bytes
  | [] => [[]]
  | b :: bs =>
    if b = charLf then [] :: splitLf bs
    else match splitLf bs with
      | [] => [[b]]
      | l :: ls => (b :: l) :: ls

/-- `from each line remove one trailing CR if present` (R105). -/
def dropTrailingCr : Bytes → Bytes
  | [] => []
  | [b] => if b = charCr then [] else [b]
  | b :: c :: bs => b :: dropTrailingCr (c :: bs)

/-- A space or a tab. -/
def isBlank (b : Byte) : Bool := b == 0x20 || b == 0x09

/-- `Name: Value` (R105): split at the first `:`, leading spaces and tabs of the value removed; a line without `:` gives
none. -/
def parseHeaderLine (ln : Bytes) : Option (Bytes × Bytes) :=
  match ln.dropWhile (· != 0x3A) with
  | [] => none
  | _ :: v => some (ln.takeWhile (· != 0x3A), v.dropWhile isBlank)

/-- `map[name] <- value`: "a repeated name overwrites" (R105). -/
def setHeader (m : List (Bytes × Bytes)) (nv : Bytes × Bytes) : List (Bytes × Bytes) :=
  m.filter (fun e => e.1 != nv.1) ++ [nv]

/-- A parsed request (R105). -/
structure ParsedRequest where
  requestLine : Bytes
  headers : List (Bytes × Bytes)
deriving DecidableEq, Repr

/-- The loop of R105 over the later lines: it stops at the first empty line, and a line without `:` is skipped. -/
def parseHeaders : List Bytes → List (Bytes × Bytes) → List (Bytes × Bytes)
  | [], m => m
  | [] :: _, m => m
  | (b :: bs) :: ls, m =>
    match parseHeaderLine (b :: bs) with
    | none => parseHeaders ls m
    | some nv => parseHeaders ls (setHeader m nv)

/-- `parse_request(raw_bytes)` (R105); "a request line is taken as malformed when it is empty" (R106).
DESIGN CHOICE: which host function raises that error is left open; it is raised here, so no map is returned then
(notes/assumptions/25.md). -/
def parseRequest (raw : Bytes) : Except ErrKind ParsedRequest :=
  match (splitLf raw).map dropTrailingCr with
  | [] => .error .handshake
  | [] :: _ => .error .handshake
  | (b :: bs) :: ls => .ok { requestLine := b :: bs, headers := parseHeaders ls [] }

/-- A case-sensitive lookup (R105). -/
def lookupHeader (name : Bytes) (m : List (Bytes × Bytes)) : Option Bytes := (m.find? fun e => e.1 == name).map (·.2)

/-- The server's command after parsing (R101): `ACCEPT key=<value of Sec-WebSocket-Key>`, or `MalformedHandshakeError`
when the lookup finds none (R106). -/
def serverCommand (raw : Bytes) : Except ErrKind PortCmd :=
  match parseRequest raw with
  | .error e => .error e
  | .ok r =>
    match lookupHeader nameKey r.headers with
    | none => .error .handshake
    | some key => .ok (asmAccept key)

/-- The server's response after its ACCEPT (R101, R107), from what it reads on the status/result port: RES_DATA is the accept
value once DONE = 1 with BUSY = 0 and ERR = 0 (70_reset_and_hazards.md R125); until then there is none to send. -/
def serverResponse (v : HostView) : Option Bytes :=
  if v.status.done && !v.status.busy && !v.status.err then some (buildResponse v.res.data) else none

/-- The client's request to `host` with its own key (R102, R103). -/
def clientRequest (host : Bytes) : Bytes := buildRequest host clientKeyText

end Sys2Proof.Machine
end

