-- ==== Sys2Proof/Safety.lean ====
section
/-! DEFINITION. The terms claims about runs use: the invariant of the states a run reaches, safe outcomes, runs, and
agreement up to the registers the host cannot see. -/

namespace Sys2Proof.Machine

/-! ## The invariant -/

/-- Between steps PHASE is IDLE or a phase that reads stream bytes, and it is IDLE exactly when BUSY = 0 (10_state.md R18,
R19, R30, R31). -/
def phaseLegal (s : State) : Bool :=
  match s.phase with
  | .idle => !s.status.busy
  | .fHdr | .fExt | .fKey | .fPay => s.status.busy
  | .exec | .fPost => false

/-- A command in flight between steps is FDECS, or LDECS in F_EXT (R18). -/
def commandLegal (s : State) : Bool :=
  !s.status.busy ||
    match decodeCommand s.cmd with
    | .ok (.fdecs _) => true
    | .ok (.ldecs _) => s.phase == .fExt
    | .ok _ => false
    | .error _ => false

/-- DONE and ERR are 0 while BUSY; HOLD needs BUSY; ERR needs DONE (R22). -/
def statusLegal (f : Status) : Bool :=
  if f.busy then !f.done && !f.err else !f.hold && (!f.err || f.done)

/-- ERRCODE is 0 without an error, and one of the kinds WSCODEC raises with one (R23): never 5, never 7 to 15. -/
def errcodeLegal (s : State) : Bool :=
  if s.status.err then s.errcode == 1 || s.errcode == 2 || s.errcode == 3 || s.errcode == 4 || s.errcode == 6
  else s.errcode == 0

/-- The result registers hold their cleared values while a command runs and after an error (R24, R29, R30). -/
def resultsLegal (s : State) : Bool := !(s.status.busy || s.status.err) || s.res == .cleared

/-- What a stream decode has established when it waits in a phase (43_frame_codec.md R83, R85). -/
def workLegal (s : State) : Bool :=
  match decodeCommand s.cmd, s.phase with
  | .ok (.fdecs _), .fHdr => s.work.cnt == 0
  | .ok (.ldecs _), .fExt => s.work.cnt == 0
  | .ok (.fdecs _), .fExt => s.work.cnt == 2 && decide (extBytes s.work.len7 ≠ 0)
  | .ok (.fdecs _), .fKey =>
    s.work.mask && decide (s.work.cnt.toNat = 2 + extBytes s.work.len7) && decide (s.work.plen.toNat ≤ s.maxPayload.val)
  | .ok (.fdecs _), .fPay =>
    decide (s.work.cnt.toNat = 2 + extBytes s.work.len7 + (if s.work.mask then 4 else 0)) &&
      decide (0 < s.work.plen.toNat) && decide (s.work.plen.toNat ≤ s.maxPayload.val)
  | _, _ => true

/-- The invariant of the states a run from reset reaches. -/
structure State.Inv (s : State) : Prop where
  phase : phaseLegal s = true
  command : commandLegal s = true
  status : statusLegal s.status = true
  errcode : errcodeLegal s = true
  results : resultsLegal s = true
  work : s.status.busy = true → workLegal s = true
  /-- The operand registers hold no more than R21 lets them. -/
  operands : s.ops.fits s.maxPayload.val = true

/-! ## Outcomes and runs -/

/-- A safe outcome: the machine goes on. -/
def Safe (o : Result) : Prop := ∃ t, o = .next t

/-- The machine never stops with a fault. -/
def NoFault (o : Result) : Prop := ∀ f, o ≠ .fault f

/-- The refusals 60_exceptions.md R120 (2) names. -/
def RefusedBySpec (o : Result) : Prop := o = .refused .payloadOverCapacity ∨ o = .refused .messageUnpaddable

/-- `s` reaches `t` in `n` steps. -/
def runsTo (n : Nat) (s t : State) : Prop := Sys2Proof.core.run n s = .next t

/-! ## The ends of a command, as the spec words them -/

/-- Completion with results `r` (10_state.md R31): `BUSY <- 0`, `DONE <- 1`, `HOLD <- 0`, `PHASE <- IDLE`. -/
def completed (r : ResRegs) (s : State) : State :=
  { s with res := r, status := { busy := false, done := true, err := s.status.err, hold := false }, phase := .idle }

/-- The error exit with ERRCODE `c` (60_exceptions.md R110); nothing else changes. -/
def errored (c : BitVec 4) (s : State) : State :=
  { s with errcode := c, status := { busy := false, done := true, err := true, hold := false }, phase := .idle }

/-- The state right after the latch of an issue (R30), PHASE aside: the command, the operands, the flags and the cleared
registers. -/
def issued (p : PortCmd) (s : State) : State :=
  { s with
    cmd := p.cw
    ops := p.ops
    status := { busy := true, done := false, err := false, hold := false }
    errcode := 0
    res := .cleared }

/-- A stream decode's step ends waiting in phase `ph`, which needs `n` bytes (R19, R22). -/
def waiting (ph : Phase) (n : Nat) (s : State) : State :=
  { s with phase := ph, status := { s.status with hold := decide (s.strm.length < n) } }

/-- The first `n` bytes of STRM consumed by the engine: HOLD cleared, W_CNT advanced (20_memory.md R37, R22). -/
def consumed (n : Nat) (s : State) : State :=
  { s with
    strm := s.strm.drop n
    status := { s.status with hold := false }
    work := { s.work with cnt := s.work.cnt + BitVec.ofNat 64 n } }

/-! ## The wire format, from the tables of 30_encoding.md R51 to R53 -/

/-- `v` as `n` big-endian bytes. -/
def beBytes : Nat → Nat → Bytes
  | 0, _ => []
  | n + 1, v => BitVec.ofNat 8 (v / 256 ^ n) :: beBytes n v

/-- LEN7 of a payload length (R53). -/
def wireLen7 (l : Nat) : BitVec 7 := if l ≤ 125 then BitVec.ofNat 7 l else if l ≤ 65535 then 126 else 127

/-- The extended length of a payload length (R53). -/
def wireExt (l : Nat) : Bytes := if l ≤ 125 then [] else if l ≤ 65535 then beBytes 2 l else beBytes 8 l

/-- The two header bytes (R52): FIN, RSV1-3 and OPCODE, then MASK and LEN7, each most significant bit first. -/
def wireHeader (fin : Bool) (rsv : BitVec 3) (opc : BitVec 4) (msk : Bool) (len7 : BitVec 7) : Bytes :=
  [BitVec.ofBool fin ++ rsv ++ opc, BitVec.ofBool msk ++ len7]

/-- `byte[i] XOR key[i mod 4]` (42_masking.md R76). -/
def maskedBytes (k : MaskKey) (p : Bytes) : Bytes := p.mapIdx fun j b => b ^^^ k.toBytes.getD (j % 4) 0

/-- The key and the payload, masked when a key is there (R51). -/
def wireBody (key : Option MaskKey) (p : Bytes) : Bytes :=
  match key with
  | none => p
  | some k => k.toBytes ++ maskedBytes k p

/-- A frame with payload `p`, masked when it has a key (R51). -/
def wireFrame (fin : Bool) (rsv : BitVec 3) (opc : BitVec 4) (key : Option MaskKey) (p : Bytes) : Bytes :=
  wireHeader fin rsv opc key.isSome (wireLen7 p.length) ++ wireExt p.length ++ wireBody key p

/-- The result registers a frame decode writes (43_frame_codec.md R83, R86) for a frame with opcode `opc` and payload
`p`, `n` source bytes consumed. -/
def frameResults (r : ResRegs) (fin : Bool) (opc : BitVec 4) (p : Bytes) (n : Nat) : ResRegs :=
  { r with
    opc := opc
    fin := fin
    data := if opc = 8 then p.drop 2 else p
    len := BitVec.ofNat 64 p.length
    close := if opc = 8 ∧ p ≠ [] then (p.getD 0 0 ++ p.getD 1 0 : BitVec 16) else 0
    closeV := decide (opc = 8 ∧ p ≠ [])
    consumed := BitVec.ofNat 64 n }

/-- The error of a frame whose bytes are all there and whose length is legal: a 1-byte close payload (R86), or a text
payload that is not UTF-8 when a text result is requested (R87). -/
def frameError (txt : Bool) (opc : BitVec 4) (p : Bytes) : Option (BitVec 4) :=
  if opc = 8 ∧ p.length = 1 then some 2
  else if txt = true ∧ opc = 1 ∧ utf8Valid p = false then some 4
  else none

/-- How a frame decode ends once its frame has been read. -/
def frameEnd (txt fin : Bool) (opc : BitVec 4) (p : Bytes) (n : Nat) (s : State) : State :=
  match frameError txt opc p with
  | some c => errored c s
  | none => completed (frameResults s.res fin opc p n) s

/-- The sixteen header rows of the opcode table with their opcodes (R56). -/
def headerRows : List (BitVec 4 × (Bool → BitVec 3 → Bool → BitVec 7 → Instr)) :=
  [(0, .wsCont), (1, .wsText), (2, .wsBinary), (3, .wsRsv3), (4, .wsRsv4), (5, .wsRsv5), (6, .wsRsv6), (7, .wsRsv7)] ++
  [(8, .wsClose), (9, .wsPing), (10, .wsPong), (11, .wsRsv11), (12, .wsRsv12), (13, .wsRsv13), (14, .wsRsv14)] ++
  [(15, .wsRsv15)]

/-- The table of well-formed UTF-8 sequences (R90), a row a list of inclusive byte ranges. -/
def utf8Table : List (List (Nat × Nat)) :=
  [[(0x00, 0x7F)], [(0xC2, 0xDF), (0x80, 0xBF)]] ++
  [[(0xE0, 0xE0), (0xA0, 0xBF), (0x80, 0xBF)], [(0xE1, 0xEC), (0x80, 0xBF), (0x80, 0xBF)]] ++
  [[(0xED, 0xED), (0x80, 0x9F), (0x80, 0xBF)], [(0xEE, 0xEF), (0x80, 0xBF), (0x80, 0xBF)]] ++
  [[(0xF0, 0xF0), (0x90, 0xBF), (0x80, 0xBF), (0x80, 0xBF)], [(0xF1, 0xF3), (0x80, 0xBF), (0x80, 0xBF), (0x80, 0xBF)]] ++
  [[(0xF4, 0xF4), (0x80, 0x8F), (0x80, 0xBF), (0x80, 0xBF)]]

/-- A byte sequence is one of the row's: each byte in the range of its column. -/
def RowHolds (row : List (Nat × Nat)) (q : Bytes) : Prop :=
  List.Forall₂ (fun r (b : Byte) => r.1 ≤ b.toNat ∧ b.toNat ≤ r.2) row q

/-- An extended length no encoder writes: a 16-bit one below 126, a 64-bit one below 65536 or with bit 63 set (R54). -/
def IllegalExt (len7 : BitVec 7) (ext : Bytes) : Prop :=
  (len7 = 126 ∧ ∃ v, v < 126 ∧ ext = beBytes 2 v) ∨
    (len7 = 127 ∧ ∃ v, v < 2 ^ 64 ∧ (v < 65536 ∨ 2 ^ 63 ≤ v) ∧ ext = beBytes 8 v)

/-! ## The commands by kind -/

/-- "A command that reads no stream bytes (every command but FDECS and LDECS)" (R19). -/
def nonStream : Instr → Bool
  | .henc .. | .hdec | .lenc | .ldecb _ | .mask | .fenc .. | .fdecb _ | .utf8v | .accept => true
  | .ldecs _ | .fdecs _ => false
  | .wsCont .. | .wsText .. | .wsBinary .. | .wsRsv3 .. | .wsRsv4 .. | .wsRsv5 .. | .wsRsv6 .. | .wsRsv7 .. => false
  | .wsClose .. | .wsPing .. | .wsPong .. => false
  | .wsRsv11 .. | .wsRsv12 .. | .wsRsv13 .. | .wsRsv14 .. | .wsRsv15 .. => false

/-- The result registers with those that a frame decode writes (R24) blanked. -/
def blankFrameResults (r : ResRegs) : ResRegs :=
  { r with data := [], fin := false, opc := 0, len := 0, close := 0, closeV := false, consumed := 0 }

/-- The result registers with those that the command writes (R24's "written by" column, and 43_frame_codec.md R91 for
UTF8V) blanked: what is left, the command keeps. -/
def blankOwnResults : Instr → ResRegs → ResRegs
  | .henc .., r | .mask, r | .fenc .., r | .utf8v, r | .accept, r => { r with data := [] }
  | .hdec, r => { r with fin := false, rsv := 0, opc := 0, mask := false, len7 := 0 }
  | .lenc, r => { r with data := [], len7 := 0 }
  | .ldecb _, r | .ldecs _, r => { r with len := 0, consumed := 0 }
  | .fdecb _, r | .fdecs _, r => blankFrameResults r
  | .wsCont .., r | .wsText .., r | .wsBinary .., r | .wsRsv3 .., r | .wsRsv4 .., r => blankFrameResults r
  | .wsRsv5 .., r | .wsRsv6 .., r | .wsRsv7 .., r | .wsClose .., r | .wsPing .., r => blankFrameResults r
  | .wsPong .., r | .wsRsv11 .., r | .wsRsv12 .., r | .wsRsv13 .., r | .wsRsv14 .., r => blankFrameResults r
  | .wsRsv15 .., r => blankFrameResults r

/-- The ERRCODEs a command raises, from the "raised by" column of 60_exceptions.md R108. A base header alone raises none:
it ends a frame only when the payload is empty. -/
def mayRaise : Instr → List (BitVec 4)
  | .henc .. | .hdec | .accept => []
  | .lenc => [2]
  | .ldecb _ => [1, 2]
  | .ldecs _ => [2]
  | .mask => [3]
  | .fenc _ _ msk ksup => if msk && ksup then [3] else []
  | .fdecb txt => if txt then [1, 2, 4] else [1, 2]
  | .fdecs txt => if txt then [2, 4] else [2]
  | .utf8v => [4]
  | .wsCont .. | .wsText .. | .wsBinary .. | .wsRsv3 .. | .wsRsv4 .. | .wsRsv5 .. | .wsRsv6 .. | .wsRsv7 .. => []
  | .wsClose .. | .wsPing .. | .wsPong .. => []
  | .wsRsv11 .. | .wsRsv12 .. | .wsRsv13 .. | .wsRsv14 .. | .wsRsv15 .. => []

/-! ## What the host cannot see -/

/-- The state with its working registers forgotten (10_state.md R25, R26: "not observable and not specified"). -/
def State.forgetWork (s : State) : State := { s with work := .powerOn, sha := .powerOn }

/-- The working registers that a command in flight has written by the phase it waits in, the rest blanked (43_frame_codec.md
R83, R85; 41_length_codec.md R74): W_CNT from the start, the header's fields from F_EXT on, W_PLEN from F_KEY on, and in F_PAY
the key of a masked frame. With no command in flight none is written. -/
def State.settledWork (s : State) : WorkRegs :=
  if s.status.busy then
    match decodeCommand s.cmd, s.phase with
    | .ok (.ldecs _), .fExt => { WorkRegs.powerOn with cnt := s.work.cnt }
    | .ok (.fdecs _), .fHdr => { WorkRegs.powerOn with cnt := s.work.cnt }
    | .ok (.fdecs _), .fExt => { s.work with plen := 0, key := ⟨0, 0, 0, 0⟩, pay := [] }
    | .ok (.fdecs _), .fKey => { s.work with key := ⟨0, 0, 0, 0⟩, pay := [] }
    | .ok (.fdecs _), .fPay => { s.work with key := if s.work.mask then s.work.key else ⟨0, 0, 0, 0⟩, pay := [] }
    | .ok (.fdecs _), .fPost => s.work
    | _, _ => .powerOn
  else .powerOn

/-- The state with the working registers that nothing in flight has written forgotten. -/
def State.settled (s : State) : State := { s with work := s.settledWork, sha := .powerOn }

/-- A function of the next state, under an outcome. -/
def mapNext (f : State → State) : Result → Result
  | .next t => .next (f t)
  | .fault r => .fault r
  | .refused r => .refused r

end Sys2Proof.Machine
end

