-- ==== Sys2Proof/Certificates/Slice0/Obligations.lean ====
section
/-! DEFINITION. The statements about the model, for the provers. Each docstring names the rule of spec/ it formalises; a clause
that rests on a choice of the model's names its log entry. Where a statement says that a command changes nothing but what it
lists, it also says that the working registers stay: R25 lets a model leave them as they are, and the model does
(notes/assumptions/8.md, 9.md). -/

open Sys2Proof
open Sys2Proof.Machine

/-! ## Encodings -/

/-- Decoding the word of a well-formed instruction gives it back, every operand at every value (30_encoding.md R59, R60,
R52). -/
def Obligations.DecodeEncodeAgree : Prop :=
  ∀ i : Instr, WellFormed i = true → decode (encode i) = .ok i

/-- The other direction: a word that decodes is the encoding of what it decodes to, so no two words mean the same command
and no set bit is dropped (R60, R62, R63). -/
def Obligations.DecodedWordIsItsEncoding : Prop :=
  ∀ (c : Code) (i : Instr), decode c = .ok i → encode i = c ∧ WellFormed i = true

/-- R62: which command words are illegal, and that issuing one completes in its step with `IllegalCommand`, no operand read,
no byte consumed and no result written. That the issue and EXEC are one step, and that the working registers stay, are the
model's (notes/assumptions/1.md, 8.md, 9.md). -/
def Obligations.IllegalCommandWords : Prop :=
  (∀ w : BitVec 32,
    (∃ e, decodeCommand w = .error e) ↔
      (cmdCode w = 0 ∨ 10 ≤ (cmdCode w).toNat ∨ (∀ r ∈ commandRows, w &&& r.mask ≠ r.pattern) ∨
        (w &&& 0xFFFFF80F = 0x00000006 ∧ cmdKsup w = true ∧ cmdMsk w = false))) ∧
  (∀ (s : State) (p : PortCmd) (rest : List Input) (e : Reject),
    s.status.busy = false → s.inputs = .issue p :: rest → p.ops.fits s.maxPayload.val = true →
      decodeCommand p.cw = .error e → step s = .next (errored 6 (issued p { s with phase := .idle, inputs := rest })))

/-- R66: the worked command words, as the assembler's words and as what they decode to. -/
def Obligations.WorkedWordsDecode : Prop :=
  ((asmHenc true 1 false 5).cw = 0x00005111 ∧ decodeCommand 0x00005111 = .ok (.henc true 1 false 5)) ∧
  ((∀ k d, (asmFenc 1 true true (some k) d).cw = 0x00000716) ∧ decodeCommand 0x00000716 = .ok (.fenc 1 true true true)) ∧
  ((∀ d, (asmFenc 8 true false none d).cw = 0x00000186) ∧ decodeCommand 0x00000186 = .ok (.fenc 8 true false false)) ∧
  ((∀ b, (asmFdecb false b).cw = 0x00000007) ∧ decodeCommand 0x00000007 = .ok (.fdecb false)) ∧
  ((∀ b, (asmFdecb true b).cw = 0x00000807) ∧ decodeCommand 0x00000807 = .ok (.fdecb true)) ∧
  ((asmFdecs false).cw = 0x00080007 ∧ decodeCommand 0x00080007 = .ok (.fdecs false)) ∧
  ((asmLdecs 126).cw = 0x000FE004 ∧ decodeCommand 0x000FE004 = .ok (.ldecs 126)) ∧
  ((∀ k, (asmAccept k).cw = 0x00000009) ∧ decodeCommand 0x00000009 = .ok .accept)

/-! ## The step and the instructions -/

/-- A step with an issue at the head of the schedule, BUSY = 0 and operands that fit, runs the decoded command on the
latched state (10_state.md R30, R19). That issue and EXEC are one step, and that PHASE is EXEC in between, is the model's
reading of R18 and R19 (notes/assumptions/1.md). -/
def Obligations.IssueRunsTheCommand : Prop :=
  ∀ (s : State) (p : PortCmd) (rest : List Input) (i : Instr),
    s.status.busy = false → s.inputs = .issue p :: rest → p.ops.fits s.maxPayload.val = true →
      decodeCommand p.cw = .ok i → step s = exec i { issued p { s with inputs := rest } with phase := .exec }

/-- An engine step of a stream command in flight runs the decoded command in CMD; in F_HDR with its two bytes there, it
pulls the base header, latches W_HDR and runs the decoded header (R19, 43_frame_codec.md R85). The schedule that gives the
engine the move is the model's (notes/assumptions/2.md). -/
def Obligations.EngineRunsTheCommandInFlight : Prop :=
  ∀ (s : State) (rest : List Input), s.status.busy = true → s.inputs = .engine :: rest →
    (∀ txt a b tl, decodeCommand s.cmd = .ok (.fdecs txt) → s.phase = .fHdr → s.strm = a :: b :: tl →
      step s = exec (decodeHeader (a ++ b : BitVec 16))
        { s with
          inputs := rest
          strm := tl
          status := { s.status with hold := false }
          work := { s.work with hdr := (a ++ b : BitVec 16), cnt := s.work.cnt + 2 } }) ∧
    (∀ txt, decodeCommand s.cmd = .ok (.fdecs txt) →
      s.phase ∈ [Phase.fExt, .fKey, .fPay] ∨ (s.phase = .fHdr ∧ s.strm.length < 2) →
        step s = exec (.fdecs txt) { s with inputs := rest }) ∧
    (∀ len7, decodeCommand s.cmd = .ok (.ldecs len7) → s.phase = .fExt →
      step s = exec (.ldecs len7) { s with inputs := rest })

/-- While BUSY = 1 the host has no issue step (R30): the issue stays at the head of the schedule and nothing of it is
latched. That the engine moves meanwhile is the model's choice (notes/assumptions/3.md). -/
def Obligations.BusyIssueWaits : Prop :=
  ∀ (s t : State) (p : PortCmd) (rest : List Input),
    s.status.busy = true → s.inputs = .issue p :: rest → step s = .next t →
      t.inputs = s.inputs ∧ t.cmd = s.cmd ∧ t.ops = s.ops

/-- Completion (R31) and the error exit (60_exceptions.md R110) of every command: what each writes, and the ERRCODE of each
kind. -/
def Obligations.ErrorExitAndCompletion : Prop :=
  (∀ (e : ErrKind) (s : State), raise e s = .next (errored e.code s)) ∧
  (∀ (r : ResRegs) (s : State), complete r s = .next (completed r s)) ∧
  [ErrKind.truncated, .protocol, .keyLength, .encoding, .handshake, .illegalCommand].map ErrKind.code = [1, 2, 3, 4, 5, 6]

/-! ## The header codec -/

/-- R68: HENC's word, and its two header bytes, FIN and the opcode in the first with RSV1-3 zero, MASK and LEN7 in the second;
nothing else but completion changes. That the working registers stay is the model's choice (notes/assumptions/8.md, 9.md). -/
def Obligations.HencPacksHeader : Prop :=
  (∀ w : BitVec 32, w &&& 0xFFF80C0F = 0x00000001 →
    decodeCommand w = .ok (.henc (w.getLsbD 8) (w.extractLsb' 4 4) (w.getLsbD 9) (w.extractLsb' 12 7))) ∧
  (∀ (fin : Bool) (opc : BitVec 4) (msk : Bool) (len7 : BitVec 7) (s : State),
    exec (.henc fin opc msk len7) s =
      .next (completed { s.res with data := wireHeader fin 0 opc msk len7 } s))

/-- R69: HDEC's word, and that it reports the fields of OP_HDR, RSV bits included; nothing else but completion changes. That the
working registers stay is the model's choice (notes/assumptions/8.md, 9.md). -/
def Obligations.HdecReportsFields : Prop :=
  decodeCommand 0x00000002 = .ok .hdec ∧
  (∀ (fin : Bool) (rsv : BitVec 3) (opc : BitVec 4) (msk : Bool) (len7 : BitVec 7) (s : State),
    s.ops.hdr = BitVec.ofBool fin ++ rsv ++ opc ++ BitVec.ofBool msk ++ len7 →
      exec .hdec s =
        .next (completed { s.res with fin := fin, rsv := rsv, opc := opc, mask := msk, len7 := len7 } s))

/-- R70: the two laws of PackHdr and UnpackHdr, and that the second fails by exactly the RSV bits. -/
def Obligations.HeaderLaws : Prop :=
  (∀ f o m l, unpackHdr (packHdr f o m l) = { fin := f, rsv := 0, opc := o, mask := m, len7 := l }) ∧
  (∀ h : BitVec 16, h.extractLsb' 12 3 = 0 →
    packHdr (h.getLsbD 15) (h.extractLsb' 8 4) (h.getLsbD 7) (h.extractLsb' 0 7) = h) ∧
  (∀ h : BitVec 16,
    packHdr (h.getLsbD 15) (h.extractLsb' 8 4) (h.getLsbD 7) (h.extractLsb' 0 7) = h &&& 0x8FFF)

/-! ## The length codec -/

/-- R73: LENC's word, its slot and extension for every OP_LEN, by the table of 30_encoding.md R53, and `ProtocolError` from 2^63 on,
nothing written then. That the working registers stay is the model's choice (notes/assumptions/8.md, 9.md). -/
def Obligations.LencPicksTheForm : Prop :=
  decodeCommand 0x00000003 = .ok .lenc ∧
  (∀ s : State,
    (s.ops.len.toNat < 2 ^ 63 →
      exec .lenc s =
        .next (completed
          { s.res with len7 := wireLen7 s.ops.len.toNat, data := wireExt s.ops.len.toNat } s)) ∧
    (2 ^ 63 ≤ s.ops.len.toNat → exec .lenc s = .next (errored 2 s)))

/-- 41_length_codec.md R74, LDECB: every legal length from OP_BUF with trailing bytes ignored, the truncated extension, and a
slot of 125 or less from any buffer. -/
def Obligations.LdecbResolvesLength : Prop :=
  ∀ s : State,
    (∀ l rest, l < 2 ^ 63 → s.ops.buf = wireExt l ++ rest →
      ∃ w, exec (.ldecb (wireLen7 l)) s =
        .next (completed
          { s.res with len := BitVec.ofNat 64 l, consumed := BitVec.ofNat 64 (wireExt l).length }
          { s with work := w })) ∧
    (s.ops.buf.length < 2 → ∃ w, exec (.ldecb 126) s = .next (errored 1 { s with work := w })) ∧
    (s.ops.buf.length < 8 → ∃ w, exec (.ldecb 127) s = .next (errored 1 { s with work := w }))

/-- R74, LDECS: at issue it enters F_EXT; in F_EXT it completes with the length and takes its bytes from STRM, or holds. -/
def Obligations.LdecsResolvesLength : Prop :=
  ∀ s : State,
    (∀ l rest, s.phase = .fExt → s.work.cnt = 0 → l < 2 ^ 63 → s.strm = wireExt l ++ rest →
      ∃ w, exec (.ldecs (wireLen7 l)) s =
        .next (completed
          { s.res with len := BitVec.ofNat 64 l, consumed := BitVec.ofNat 64 (wireExt l).length }
          { s with work := w, strm := rest })) ∧
    (∀ len7, s.phase = .fExt → s.strm.length < extBytes len7 →
      exec (.ldecs len7) s = .next { s with status := { s.status with hold := true } }) ∧
    (∀ len7, s.phase = .exec →
      exec (.ldecs len7) s = .next (waiting .fExt (extBytes len7) { s with work := { s.work with cnt := 0 } }))

/-- R75: for every L below 2^63, ResolveLen of what LenEnc writes returns L, the extension has 0, 2 or 8 bytes exactly by the
form of L, and every pair ResolveLen accepts is LenEnc of its result. -/
def Obligations.LengthCodecInverse : Prop :=
  (∀ l, l < 2 ^ 63 → ∃ l7 ext, lenEnc l = some (l7, ext) ∧ resolveLen l7 ext = some (BitVec.ofNat 64 l) ∧
    ext.length = extBytes l7 ∧ (ext.length = 0 ↔ l ≤ 125) ∧ (ext.length = 2 ↔ 126 ≤ l ∧ l ≤ 65535) ∧
    (ext.length = 8 ↔ 65536 ≤ l)) ∧
  (∀ l7 ext v, ext.length = extBytes l7 → resolveLen l7 ext = some v → lenEnc v.toNat = some (l7, ext))

/-- R54: each length below 2^63 has a legal encoding and no more than one, and each decoder raises `ProtocolError` on an
extension that is not the form its value requires or has bit 63 set, whatever follows it. That the SHA-1 registers stay after
the error is the model's choice (notes/assumptions/9.md). -/
def Obligations.IllegalLengthsRejected : Prop :=
  (∀ l, l < 2 ^ 63 → ∃ l7 ext, ext.length = extBytes l7 ∧ resolveLen l7 ext = some (BitVec.ofNat 64 l)) ∧
  (∀ l7 ext l7' ext' v, ext.length = extBytes l7 → ext'.length = extBytes l7' → resolveLen l7 ext = some v →
    resolveLen l7' ext' = some v → l7 = l7' ∧ ext = ext') ∧
  (∀ len7 ext rest (s : State), IllegalExt len7 ext →
    (s.ops.buf = ext ++ rest → ∃ w, exec (.ldecb len7) s = .next (errored 2 { s with work := w })) ∧
    (∀ txt fin rsv opc msk, s.ops.buf = wireHeader fin rsv opc msk len7 ++ ext ++ rest →
      ∃ w, exec (.fdecb txt) s = .next (errored 2 { s with work := w })) ∧
    (s.phase = .fExt → s.strm = ext ++ rest →
      ∃ w, exec (.ldecs len7) s = .next (errored 2 { s with work := w, strm := rest })) ∧
    (∀ txt, s.phase = .fExt → s.work.len7 = len7 → s.strm = ext ++ rest →
      ∃ w, exec (.fdecs txt) s = .next (errored 2 { s with work := w, strm := rest })))

/-! ## The masking engine -/

/-- R77: MASK's word; it xors payload byte j with key byte j mod 4, and raises `InvalidKeyLength` for any key that is not 4 bytes, also
for an empty payload. That the working registers stay is the model's choice (notes/assumptions/8.md, 9.md). -/
def Obligations.MaskXorsCyclically : Prop :=
  decodeCommand 0x00000005 = .ok .mask ∧
  (∀ s : State,
    (s.ops.key.length = 4 → ∃ out, exec .mask s = .next (completed { s.res with data := out } s) ∧
      out.length = s.ops.data.length ∧
      ∀ j, j < s.ops.data.length → out.getD j 0 = s.ops.data.getD j 0 ^^^ s.ops.key.getD (j % 4) 0) ∧
    (s.ops.key.length ≠ 4 → exec .mask s = .next (errored 3 s)))

/-- R79: masking is an involution, keeps the length, and masks a concatenation piece by piece with the key rotated by the
first piece's length. -/
def Obligations.MaskLaws : Prop :=
  ∀ (p q k : Bytes), k.length = 4 →
    ∃ a b, applyMask p k = some a ∧ applyMask a k = some p ∧ a.length = p.length ∧
      applyMask q (k.rotate (p.length % 4)) = some b ∧ applyMask (p ++ q) k = some (a ++ b)

/-! ## FENC -/

/-- R80: FENC's words; it writes the wire frame of its payload, unmasked, masked with the supplied key or masked with a drawn key, and
raises `InvalidKeyLength` for a supplied key that is not 4 bytes; nothing but RES_DATA, completion and the draw changes. That
the working registers stay, and which fields a draw changes, are the model's choices (notes/assumptions/7.md, 8.md, 9.md). -/
def Obligations.FencBuildsTheWireFrame : Prop :=
  (∀ w : BitVec 32, w &&& 0xFFFFF80F = 0x00000006 →
    decodeCommand w =
      if w.getLsbD 10 = true ∧ w.getLsbD 9 = false then .error .keyWithoutMask
      else .ok (.fenc (w.extractLsb' 4 4) (w.getLsbD 8) (w.getLsbD 9) (w.getLsbD 10))) ∧
  (∀ (opc : BitVec 4) (fin : Bool) (s : State), s.ops.data.length ≤ s.maxPayload.val →
    exec (.fenc opc fin false false) s =
      .next (completed { s.res with data := wireFrame fin 0 opc none s.ops.data } s) ∧
    (∀ k : MaskKey, s.ops.key = [k.k0, k.k1, k.k2, k.k3] →
      exec (.fenc opc fin true true) s =
        .next (completed { s.res with data := wireFrame fin 0 opc (some k) s.ops.data } s)) ∧
    (s.ops.key.length ≠ 4 → exec (.fenc opc fin true true) s = .next (errored 3 s)) ∧
    (∃ k draws n, exec (.fenc opc fin true false) s =
      .next (completed { s.res with data := wireFrame fin 0 opc (some k) s.ops.data }
        { s with keyDraws := draws, drawCount := n })))

/-- 42_masking.md R78: an FENC with MSK = 1 and KSUP = 0 takes one draw. Where the draw comes from is the model's choice
(notes/assumptions/7.md): the next one waiting on the key-draw input, else the free value of the counter, which no rule and no
proof knows. -/
def Obligations.FencTakesOneDraw : Prop :=
  ∀ (opc : BitVec 4) (fin : Bool) (s : State), s.ops.data.length ≤ s.maxPayload.val →
    (∀ k draws, s.keyDraws = k :: draws →
      exec (.fenc opc fin true false) s =
        .next (completed { s.res with data := wireFrame fin 0 opc (some k) s.ops.data } { s with keyDraws := draws })) ∧
    (s.keyDraws = [] →
      exec (.fenc opc fin true false) s =
        .next (completed
          { s.res with data := wireFrame fin 0 opc (some (Config.maskKeySource s.drawCount)) s.ops.data }
          { s with drawCount := s.drawCount + 1 }))

/-- R81: an empty payload still gives a frame, 2 bytes unmasked and 6 bytes masked, and a supplied key is still
length-checked. That the working registers stay, and which fields a draw changes, are the model's choices
(notes/assumptions/7.md, 8.md, 9.md). -/
def Obligations.FencEmptyPayload : Prop :=
  ∀ (opc : BitVec 4) (fin : Bool) (s : State), s.ops.data = [] →
    exec (.fenc opc fin false false) s =
      .next (completed { s.res with data := [BitVec.ofBool fin ++ (0 : BitVec 3) ++ opc, 0x00] } s) ∧
    (∀ a b c d, s.ops.key = [a, b, c, d] →
      exec (.fenc opc fin true true) s =
        .next (completed { s.res with data := [BitVec.ofBool fin ++ (0 : BitVec 3) ++ opc, 0x80, a, b, c, d] } s)) ∧
    (s.ops.key.length ≠ 4 → exec (.fenc opc fin true true) s = .next (errored 3 s)) ∧
    (∃ (k : MaskKey) (draws : List MaskKey) (n : Nat), exec (.fenc opc fin true false) s =
      .next (completed
        { s.res with data := [BitVec.ofBool fin ++ (0 : BitVec 3) ++ opc, 0x80, k.k0, k.k1, k.k2, k.k3] }
        { s with keyDraws := draws, drawCount := n }))

/-! ## Frame decoding -/

/-- FDECB on every wire frame (43_frame_codec.md R83, R84): any FIN, RSV bits and opcode, masked or not, any payload that
fits, any trailing bytes. The results, the close split of R86, the text check of R87 and the bytes consumed are those of
`frameEnd`; only working registers besides. -/
def Obligations.FdecbDecodesWireFrames : Prop :=
  ∀ (txt fin : Bool) (rsv : BitVec 3) (opc : BitVec 4) (key : Option MaskKey) (p rest : Bytes) (s : State),
    p.length ≤ s.maxPayload.val → s.ops.buf = wireFrame fin rsv opc key p ++ rest →
      ∃ w, exec (.fdecb txt) s =
        .next (frameEnd txt fin opc p (wireFrame fin rsv opc key p).length { s with work := w })

/-- FDECB on every wire frame cut short, wherever the cut falls, raises `TruncatedFrameError` and writes no result (R84,
20_memory.md R37). -/
def Obligations.FdecbTruncatedFrames : Prop :=
  ∀ (txt fin : Bool) (rsv : BitVec 3) (opc : BitVec 4) (key : Option MaskKey) (p : Bytes) (n : Nat) (s : State),
    p.length ≤ s.maxPayload.val → n < (wireFrame fin rsv opc key p).length →
      s.ops.buf = (wireFrame fin rsv opc key p).take n →
        ∃ w, exec (.fdecb txt) s = .next (errored 1 { s with work := w })

/-- R89: a decode whose resolved length exceeds MAX_PAYLOAD is refused, in buffer mode, in F_EXT of stream mode, and in the
header's own phase. That a base header row is run by itself is the model's reading (notes/assumptions/11.md). -/
def Obligations.OverCapacityRefused : Prop :=
  ∀ (l : Nat) (rest : Bytes) (s : State), s.maxPayload.val < l → l < 2 ^ 63 →
    (∀ txt fin rsv opc msk, s.ops.buf = wireHeader fin rsv opc msk (wireLen7 l) ++ wireExt l ++ rest →
      exec (.fdecb txt) s = .refused .payloadOverCapacity) ∧
    (∀ txt, s.phase = .fExt → s.work.len7 = wireLen7 l → s.strm = wireExt l ++ rest →
      exec (.fdecs txt) s = .refused .payloadOverCapacity) ∧
    (∀ row ∈ headerRows, ∀ fin rsv msk, l ≤ 125 →
      exec (row.2 fin rsv msk (wireLen7 l)) s = .refused .payloadOverCapacity)

/-- The F_HDR phase for each of the sixteen header rows (R83, R85): a sentinel goes on to F_EXT; else a masked frame to F_KEY,
an unmasked one with a payload to F_PAY, and an unmasked empty one completes. Registers not named are unchanged. That a row
is run by itself after its two bytes are pulled is the model's reading (notes/assumptions/11.md). -/
def Obligations.HeaderRowsRun : Prop :=
  ∀ row ∈ headerRows, ∀ (fin : Bool) (rsv : BitVec 3) (msk : Bool) (len7 : BitVec 7) (s : State),
    (len7 = 126 → exec (row.2 fin rsv msk len7) s =
      .next (waiting .fExt 2
        { s with work := { s.work with fin := fin, rsv := rsv, opc := row.1, mask := msk, len7 := len7 } })) ∧
    (len7 = 127 → exec (row.2 fin rsv msk len7) s =
      .next (waiting .fExt 8
        { s with work := { s.work with fin := fin, rsv := rsv, opc := row.1, mask := msk, len7 := len7 } })) ∧
    (len7.toNat ≤ 125 → len7.toNat ≤ s.maxPayload.val → msk = true → exec (row.2 fin rsv msk len7) s =
      .next (waiting .fKey 4
        { s with work := { s.work with fin := fin, rsv := rsv, opc := row.1, mask := msk, len7 := len7,
                                       plen := BitVec.ofNat 64 len7.toNat } })) ∧
    (len7.toNat ≤ 125 → len7.toNat ≤ s.maxPayload.val → msk = false → len7 ≠ 0 → exec (row.2 fin rsv msk len7) s =
      .next (waiting .fPay len7.toNat
        { s with work := { s.work with fin := fin, rsv := rsv, opc := row.1, mask := msk, len7 := len7,
                                       plen := BitVec.ofNat 64 len7.toNat } })) ∧
    (len7 = 0 → msk = false → exec (row.2 fin rsv msk len7) s =
      .next (completed (frameResults s.res fin row.1 [] s.work.cnt.toNat)
        { s with work := { s.work with fin := fin, rsv := rsv, opc := row.1, mask := msk, len7 := len7,
                                       plen := 0, pay := [] } }))

/-- FDECS phase by phase (R85): the entry at issue, F_EXT, F_KEY, and F_PAY with the completion, HOLD set exactly when the
phase it goes on to lacks bytes (10_state.md R22; notes/assumptions/5.md). -/
def Obligations.FdecsPhases : Prop :=
  ∀ (txt : Bool) (s : State),
    (s.phase = .exec →
      exec (.fdecs txt) s = .next (waiting .fHdr 2 { s with work := { s.work with cnt := 0 } })) ∧
    (∀ l rest, s.phase = .fExt → 126 ≤ l → l ≤ s.maxPayload.val → s.work.len7 = wireLen7 l →
      s.strm = wireExt l ++ rest →
        exec (.fdecs txt) s =
          .next (waiting (if s.work.mask then .fKey else .fPay) (if s.work.mask then 4 else l)
            { consumed (wireExt l).length s with
              work := { (consumed (wireExt l).length s).work with plen := BitVec.ofNat 64 l } })) ∧
    (∀ (k : MaskKey) rest, s.phase = .fKey → s.work.plen ≠ 0 → s.strm = [k.k0, k.k1, k.k2, k.k3] ++ rest →
      exec (.fdecs txt) s =
        .next (waiting .fPay s.work.plen.toNat
          { consumed 4 s with work := { (consumed 4 s).work with key := k } })) ∧
    (∀ (k : MaskKey) rest, s.phase = .fKey → s.work.plen = 0 → s.strm = [k.k0, k.k1, k.k2, k.k3] ++ rest →
      exec (.fdecs txt) s =
        .next (completed (frameResults s.res s.work.fin s.work.opc [] (s.work.cnt.toNat + 4))
          { consumed 4 s with work := { (consumed 4 s).work with key := k, pay := [] } })) ∧
    (∀ raw rest, s.phase = .fPay → raw ≠ [] → raw.length = s.work.plen.toNat → s.strm = raw ++ rest →
      ∃ w, exec (.fdecs txt) s =
        .next (frameEnd txt s.work.fin s.work.opc (if s.work.mask then maskedBytes s.work.key raw else raw)
          (s.work.cnt.toNat + raw.length) { s with work := w, strm := rest }))

/-- 20_memory.md R38: while the phase's bytes are not there, every engine step keeps everything and shows HOLD = 1, however
many are taken. -/
def Obligations.StreamHoldsForever : Prop :=
  ∀ s : State, s.status.busy = true → s.inputs = [] →
    (∀ txt n, decodeCommand s.cmd = .ok (.fdecs txt) → s.phase ∈ [Phase.fHdr, .fExt, .fKey, .fPay] →
      s.strm.length < phaseNeed s.phase s.work →
        runsTo (n + 1) s { s with status := { s.status with hold := true } }) ∧
    (∀ len7 n, decodeCommand s.cmd = .ok (.ldecs len7) → s.phase = .fExt → s.strm.length < extBytes len7 →
      runsTo (n + 1) s { s with status := { s.status with hold := true } })

/-- R39: arrival granularity is not observable, in every phase of FDECS and in that of LDECS: bytes that come in two pieces with
an engine step between, the first piece not enough, end where the same bytes in one piece end. The schedules are the model's
(notes/assumptions/2.md). -/
def Obligations.ArrivalGranularityInvisible : Prop :=
  ∀ (a b : Bytes) (s : State), s.status.busy = true →
    ((∃ txt, decodeCommand s.cmd = .ok (.fdecs txt) ∧ s.phase ∈ [Phase.fHdr, .fExt, .fKey, .fPay] ∧
        (s.strm ++ a).length < phaseNeed s.phase s.work) ∨
      (∃ len7, decodeCommand s.cmd = .ok (.ldecs len7) ∧ s.phase = .fExt ∧ (s.strm ++ a).length < extBytes len7)) →
      Sys2Proof.core.run 4 { s with inputs := [.arrive a, .engine, .arrive b, .engine] } =
        Sys2Proof.core.run 2 { s with inputs := [.arrive (a ++ b), .engine] }

/-- R92, buffer mode: a frame FENC builds (any opcode, FIN, mask choice, supplied or drawn key, payload that fits) decodes back
with any trailing bytes to its opcode, FIN and payload, up to the close split, the 1-byte close error and the text check. -/
def Obligations.BufferRoundTrip : Prop :=
  ∀ (opc : BitVec 4) (fin msk ksup : Bool) (s : State), WellFormed (.fenc opc fin msk ksup) = true →
    s.ops.data.length ≤ s.maxPayload.val → (ksup = true → s.ops.key.length = 4) →
      ∃ t, exec (.fenc opc fin msk ksup) s = .next t ∧ t.errcode = s.errcode ∧
        ∀ (txt : Bool) (rest : Bytes) (u : State), u.maxPayload = s.maxPayload → u.ops.buf = t.res.data ++ rest →
          ∃ w, exec (.fdecb txt) u =
            .next (frameEnd txt fin opc s.ops.data t.res.data.length { u with work := w })

/-- R92, stream mode: once STRM begins with a frame FENC builds, an issued FDECS ends, within five steps, with the same
results, and leaves what follows the frame in STRM. The count of
steps rests on the model's readings: issue and first step in one, an empty schedule gives the engine the move, an idle engine
stays as it is (notes/assumptions/1.md, 2.md, 4.md). -/
def Obligations.StreamRoundTrip : Prop :=
  ∀ (opc : BitVec 4) (fin msk ksup : Bool) (s : State), WellFormed (.fenc opc fin msk ksup) = true →
    s.ops.data.length ≤ s.maxPayload.val → (ksup = true → s.ops.key.length = 4) →
      ∃ t, exec (.fenc opc fin msk ksup) s = .next t ∧
        ∀ (txt : Bool) (rest : Bytes) (p : PortCmd) (u : State), u.maxPayload = s.maxPayload →
          u.status.busy = false → u.inputs = [.issue p] → decodeCommand p.cw = .ok (.fdecs txt) →
          p.ops.fits u.maxPayload.val = true → u.strm = t.res.data ++ rest →
            ∃ w, runsTo 5 u
              (frameEnd txt fin opc s.ops.data t.res.data.length
                { issued p u with work := w, strm := rest, inputs := [] })

/-- The two decode variants agree on any bytes at all (R83: "both run this one algorithm"): when FDECB of a buffer ends other
than truncated, FDECS of the same bytes on the stream ends with the same host view, and on success has taken exactly
RES_CONSUMED bytes. The count of
steps rests on the model's readings: issue and first step in one, an empty schedule gives the engine the move, an idle engine
stays as it is (notes/assumptions/1.md, 2.md, 4.md). -/
def Obligations.StreamAgreesWithBuffer : Prop :=
  ∀ (txt : Bool) (bs : Bytes) (s b : State), s.status.busy = false → s.strm = bs →
    step { s with inputs := [.issue (asmFdecb txt bs)] } = .next b → b.errcode ≠ 1 →
      ∃ t, runsTo 5 { s with inputs := [.issue (asmFdecs txt)] } t ∧ t.hostView = b.hostView ∧
        (b.status.err = false → t.strm = bs.drop b.res.consumed.toNat)

/-- A CLOSE pseudo-command's frame, unmasked, masked with `key=` or masked with a drawn key, decodes back to its code and its
reason (30_encoding.md R65, 43_frame_codec.md R82, R86); `key=` without mask=1 is an illegal command (R61) and a key that is
not 4 bytes is `InvalidKeyLength` (R80). What the unnamed operands hold is the model's choice (notes/assumptions/24.md). -/
def Obligations.CloseFrameDecodesBack : Prop :=
  ∀ (code : BitVec 16) (reason : Bytes) (msk : Bool) (key : Option Bytes) (s : State), s.status.busy = false →
    (pseudoClose code reason msk key).ops.fits s.maxPayload.val = true →
    s.inputs = [.issue (pseudoClose code reason msk key)] →
      ((key = none ∨ (∃ k, key = some k ∧ k.length = 4 ∧ msk = true)) →
        ∃ t, step s = .next t ∧
          ∃ u, step { t with inputs := [.issue (asmFdecb false t.res.data)] } = .next u ∧
            u.status = { busy := false, done := true, err := false, hold := false } ∧
            u.res.opc = 8 ∧ u.res.fin = true ∧ u.res.closeV = true ∧ u.res.close = code ∧ u.res.data = reason) ∧
      (key.isSome = true → msk = false → ∃ t, step s = .next t ∧ t.status.err = true ∧ t.errcode = 6) ∧
      (∀ k, key = some k → k.length ≠ 4 → msk = true → ∃ t, step s = .next t ∧ t.status.err = true ∧ t.errcode = 3)

/-! ## UTF-8 -/

/-- R90: a byte sequence is valid iff it is a concatenation of zero or more sequences, each of a row of the table. -/
def Obligations.Utf8IsTableConcatenation : Prop :=
  ∀ bs : Bytes, utf8Valid bs = true ↔
    ∃ seqs : List Bytes, bs = seqs.flatten ∧ ∀ q ∈ seqs, ∃ row ∈ utf8Table, RowHolds row q

/-- R91: UTF8V's word; it completes with its operand, or raises `InvalidEncodingError`. That the working registers stay is the
model's choice (notes/assumptions/8.md, 9.md). -/
def Obligations.Utf8vChecksOperand : Prop :=
  decodeCommand 0x00000008 = .ok .utf8v ∧
  (∀ s : State,
    (utf8Valid s.ops.data = true → exec .utf8v s = .next (completed { s.res with data := s.ops.data } s)) ∧
    (utf8Valid s.ops.data = false → exec .utf8v s = .next (errored 4 s)))

/-! ## The accept-key unit -/

/-- R99: ACCEPT's word; it completes with the base64 of the SHA-1 of the key and the GUID, 28 bytes, whatever the SHA-1
registers held before, and is refused only for a message that cannot be padded. That the W_* registers stay is the
model's choice (notes/assumptions/8.md). -/
def Obligations.AcceptComputesValue : Prop :=
  decodeCommand 0x00000009 = .ok .accept ∧
  (∀ s : State,
    (8 * (s.ops.data.length + 36) < 2 ^ 64 →
      (base64 (sha1 (s.ops.data ++ Config.guid))).length = 28 ∧
      ∃ sha', exec .accept s =
        .next (completed { s.res with data := base64 (sha1 (s.ops.data ++ Config.guid)) } { s with sha := sha' })) ∧
    (2 ^ 64 ≤ 8 * (s.ops.data.length + 36) → exec .accept s = .refused .messageUnpaddable))

/-- R100: ACCEPT of the fixed vector's key, from any state; the 28 characters of which the last is `=`; and that the value
depends on the key alone. -/
def Obligations.AcceptVectorAndShape : Prop :=
  (∀ s : State,
    s.ops.data =
        [0x64, 0x47, 0x68, 0x6C, 0x49, 0x48, 0x4E, 0x68, 0x62, 0x58, 0x42, 0x73] ++
          [0x5A, 0x53, 0x42, 0x75, 0x62, 0x32, 0x35, 0x6A, 0x5A, 0x51, 0x3D, 0x3D] →
      ∃ t, exec .accept s = .next t ∧
        t.res.data =
          [0x73, 0x33, 0x70, 0x50, 0x4C, 0x4D, 0x42, 0x69, 0x54, 0x78, 0x61, 0x51, 0x39, 0x6B] ++
            [0x59, 0x47, 0x7A, 0x7A, 0x68, 0x5A, 0x52, 0x62, 0x4B, 0x2B, 0x78, 0x4F, 0x6F, 0x3D]) ∧
  (∀ s t : State, exec .accept s = .next t → t.res.data.length = 28 ∧ t.res.data.getD 27 0 = 0x3D) ∧
  (∀ s t s' t' : State, s.ops.data = t.ops.data → exec .accept s = .next s' → exec .accept t = .next t' →
    s'.res.data = t'.res.data)

/-- R95: M' is the message, 0x80, the least number of zero bytes that fills the last block, and the bit length in 8 bytes; it
splits into whole blocks in order; 59 zero bytes and two blocks for 60 bytes; and ACCEPT refuses a message that cannot be
padded. -/
def Obligations.Sha1Padding : Prop :=
  (∀ m : Bytes, 8 * m.length < 2 ^ 64 →
    (∃ z, padMessage m = m ++ [0x80] ++ List.replicate z 0 ++ beBytes 8 (8 * m.length) ∧
      (m.length + 1 + z + 8) % 64 = 0 ∧ (∀ y, (m.length + 1 + y + 8) % 64 = 0 → z ≤ y) ∧
      (m.length = 60 → z = 59 ∧ (padMessage m).length / 64 = 2)) ∧
    (blocks64 ((padMessage m).length / 64) (padMessage m)).flatten = padMessage m ∧
    ∀ b ∈ blocks64 ((padMessage m).length / 64) (padMessage m), b.length = 64) ∧
  (∀ s : State, 2 ^ 64 ≤ 8 * (s.ops.data ++ Config.guid).length → exec .accept s = .refused .messageUnpaddable)

/-- R96's message schedule: sixteen big-endian words of the block, then the rotated xor of four earlier ones. -/
def Obligations.Sha1Schedule : Prop :=
  ∀ b : Bytes, b.length = 64 →
    (schedule b).length = 80 ∧
    (∀ t, t < 16 → (schedule b).getD t 0 = (b.getD (4 * t) 0 ++ b.getD (4 * t + 1) 0 ++ b.getD (4 * t + 2) 0 ++
      b.getD (4 * t + 3) 0 : BitVec 32)) ∧
    (∀ t, 16 ≤ t → t < 80 →
      (schedule b).getD t 0 =
        ((schedule b).getD (t - 3) 0 ^^^ (schedule b).getD (t - 8) 0 ^^^ (schedule b).getD (t - 14) 0 ^^^
          (schedule b).getD (t - 16) 0).rotateLeft 1)

/-- What R98's base64 keeps: four characters for each group of three bytes, the last group rounded up, and no two byte
sequences with the same characters. -/
def Obligations.Base64KeepsItsInput : Prop :=
  (∀ d : Bytes, (base64 d).length = 4 * ((d.length + 2) / 3)) ∧ (∀ d e : Bytes, base64 d = base64 e → d = e)

/-! ## Reset, invariants and the host's view -/

/-- R121 and R122: the reset input, at any point of a run, sets every register of R32 that has a value there and leaves STRM as
it is. That what is scheduled after the reset stays is the model's choice (notes/assumptions/20.md). -/
def Obligations.ResetInputClears : Prop :=
  ∀ (s : State) (rest : List Input), s.inputs = .reset :: rest →
    ∃ t, step s = .next t ∧ t.phase = .idle ∧ t.cmd = 0 ∧ t.ops = { hdr := 0, len := 0, data := [], key := [], buf := [] } ∧
      t.status = { busy := false, done := false, err := false, hold := false } ∧ t.errcode = 0 ∧
      t.res = { data := [], fin := false, rsv := 0, opc := 0, mask := false, len7 := 0, len := 0, close := 0,
                closeV := false, consumed := 0 } ∧
      t.strm = s.strm ∧ t.keyDraws = s.keyDraws ∧ t.drawCount = s.drawCount ∧ t.inputs = rest

/-- R32, R123: the registers after reset, whatever MAX_PAYLOAD is. (The working registers, unspecified there, are left out.) -/
def Obligations.ResetRegisterValues : Prop :=
  ∀ m, (State.powerOn m).phase = .idle ∧ (State.powerOn m).cmd = 0 ∧
    (State.powerOn m).ops = { hdr := 0, len := 0, data := [], key := [], buf := [] } ∧
    (State.powerOn m).status = { busy := false, done := false, err := false, hold := false } ∧
    (State.powerOn m).errcode = 0 ∧
    (State.powerOn m).res = { data := [], fin := false, rsv := 0, opc := 0, mask := false, len7 := 0, len := 0, close := 0,
                              closeV := false, consumed := 0 } ∧
    (∃ m', State.reset = State.powerOn m')

/-- The invariant holds after reset, whatever MAX_PAYLOAD is. -/
def Obligations.ResetMeetsInv : Prop := (∀ m, (State.powerOn m).Inv) ∧ State.reset.Inv

/-- Every step keeps the invariant: PHASE, BUSY and CMD agree, the flags and ERRCODE stay legal, the results stay cleared until
a command completes, and a waiting decode's working registers say what it has read. -/
def Obligations.StepKeepsInv : Prop := ∀ s t : State, s.Inv → step s = .next t → t.Inv

/-- In a state that meets the invariant the machine never stops with a fault: every error of 60_exceptions.md R108 is a next
state. -/
def Obligations.InvStepsNeverFault : Prop := ∀ s : State, s.Inv → NoFault (step s)

/-- What a step may refuse: the two refusals of 60_exceptions.md R120 (2), and an issue whose operands do not fit (the model's
choice, notes/assumptions/10.md). Nothing is refused as not modelled. -/
def Obligations.RefusalsAreNamed : Prop :=
  ∀ s : State, ∀ r, step s = .refused r →
    r = .payloadOverCapacity ∨ r = .messageUnpaddable ∨
      (r = .operandOverCapacity ∧ ∃ p rest, s.inputs = .issue p :: rest ∧ p.ops.fits s.maxPayload.val = false)

/-- 20_memory.md R45, 10_state.md R29: from a state that meets the invariant, the host reads cleared results after every step
that leaves a command in flight or ends in an error. -/
def Obligations.NoPartialResultsSeen : Prop :=
  ∀ s t : State, s.Inv → step s = .next t → t.status.busy = true ∨ t.status.err = true →
    t.hostView.res = ResRegs.cleared

/-- R36: STRM grows only at its tail, by arrivals, and is otherwise only consumed at its head. -/
def Obligations.StreamConsumedAtHeadOnly : Prop :=
  ∀ s t : State, step s = .next t →
    (∃ n, t.strm = s.strm.drop n) ∨ (∃ bs rest, s.inputs = .arrive bs :: rest ∧ t.strm = s.strm ++ bs)

/-- 10_state.md R20, R21, 20_memory.md R46: CMD and the operand registers change only in an issue step and in a reset, and the
parameter MAX_PAYLOAD never. -/
def Obligations.OperandsChangeOnlyAtIssue : Prop :=
  ∀ s t : State, step s = .next t →
    t.maxPayload = s.maxPayload ∧
      ((t.cmd = s.cmd ∧ t.ops = s.ops) ∨
        (∃ p rest, s.status.busy = false ∧ s.inputs = .issue p :: rest ∧ t.cmd = p.cw ∧ t.ops = p.ops) ∨
        (∃ rest, s.inputs = .reset :: rest))

/-- The frame of the commands that read no stream byte (HENC, HDEC, LENC, LDECB, MASK, FENC, FDECB, UTF8V, ACCEPT): CMD, the
operands, STRM, the schedule and MAX_PAYLOAD are unchanged; the working registers change only in LDECB and FDECB, the SHA-1
registers only in ACCEPT, the draws only in FENC with MSK = 1 and KSUP = 0; result registers the command does not list are
unchanged (10_state.md R24), and all of them are when it newly ends in an error. -/
def Obligations.NonStreamFrame : Prop :=
  ∀ (i : Instr) (s t : State), nonStream i = true → exec i s = .next t →
    t.cmd = s.cmd ∧ t.ops = s.ops ∧ t.strm = s.strm ∧ t.inputs = s.inputs ∧ t.maxPayload = s.maxPayload ∧
    t.phase = .idle ∧ t.status.busy = false ∧ t.status.done = true ∧ t.status.hold = false ∧
    (t.work = s.work ∨ (∃ l, i = .ldecb l) ∨ (∃ x, i = .fdecb x)) ∧
    (t.sha = s.sha ∨ i = .accept) ∧
    ((t.keyDraws = s.keyDraws ∧ t.drawCount = s.drawCount) ∨ (∃ o f, i = .fenc o f true false)) ∧
    blankOwnResults i t.res = blankOwnResults i s.res ∧
    (t.status.err = true → s.status.err = false → t.res = s.res)

/-- The frame of LDECS, FDECS and the sixteen base headers: CMD, the operands, the schedule, MAX_PAYLOAD, the SHA-1 registers and
the draws are unchanged, STRM only loses bytes at its head, and result registers the command does not list are unchanged. -/
def Obligations.StreamFrame : Prop :=
  ∀ (i : Instr) (s t : State), nonStream i = false → exec i s = .next t →
    t.cmd = s.cmd ∧ t.ops = s.ops ∧ t.inputs = s.inputs ∧ t.maxPayload = s.maxPayload ∧ t.sha = s.sha ∧
    t.keyDraws = s.keyDraws ∧ t.drawCount = s.drawCount ∧ (∃ n, t.strm = s.strm.drop n) ∧
    blankOwnResults i t.res = blankOwnResults i s.res

/-- 60_exceptions.md R108's "raised by" column: ERRCODE after a command is what it was or a kind the table gives that command.
WSCODEC never writes 5 (10_state.md R23). -/
def Obligations.ErrorsByCommand : Prop :=
  ∀ (i : Instr) (s t : State), s.ops.data.length ≤ s.maxPayload.val → exec i s = .next t →
    t.errcode = s.errcode ∨ t.errcode ∈ mayRaise i

/-- 10_state.md R17, O7: nothing the host can see depends on working registers that nothing in flight has written. Two states
that agree on all but those (`State.settled`) step to outcomes that agree on all but those, through every phase of a stream
decode; so two states with BUSY = 0 that differ only in working registers run alike for any number of steps. -/
def Obligations.WorkingRegistersInvisible : Prop :=
  (∀ s t : State, s.settled = t.settled → mapNext State.settled (step s) = mapNext State.settled (step t)) ∧
  (∀ (n : Nat) (s t : State), s.status.busy = false → s.forgetWork = t.forgetWork →
    mapNext State.forgetWork (Sys2Proof.core.run n s) = mapNext State.forgetWork (Sys2Proof.core.run n t))

/-- R19: a command that reads no stream bytes goes from issue to completion in one step, or meets one of the two refusals of
60_exceptions.md R120. That the issue and EXEC are one step is the model's reading (notes/assumptions/1.md). -/
def Obligations.NonStreamCommandsEndInOneStep : Prop :=
  ∀ (i : Instr) (s : State) (p : PortCmd) (rest : List Input), nonStream i = true → s.status.busy = false →
    s.inputs = .issue p :: rest → p.ops.fits s.maxPayload.val = true → decodeCommand p.cw = .ok i →
      RefusedBySpec (step s) ∨
        ∃ t, step s = .next t ∧ t.phase = .idle ∧ t.status.busy = false ∧ t.status.done = true ∧ t.inputs = rest

/-! ## The host's handshake text -/

/-- 45_handshake_host.md R101, R103, R105: the server finds in a built request the key it was built with, and issues ACCEPT of
it. The model runs none of this; the functions are the host's (notes/assumptions/21.md), and the operands ACCEPT's line does not name are the
model's choice (notes/assumptions/24.md). -/
def Obligations.ServerFindsTheKey : Prop :=
  ∀ host key : Bytes, charLf ∉ host → charLf ∉ key → (∀ b, key.head? = some b → isBlank b = false) →
    serverCommand (buildRequest host key) = .ok (asmAccept key)

/-- R106: an empty request line, and a request in which the lookup of the key finds nothing, are `MalformedHandshakeError`.
The functions, and that parsing is what raises the first, are the model's choices (notes/assumptions/21.md, 25.md). -/
def Obligations.HandshakeErrors : Prop :=
  (∀ raw, serverCommand (charLf :: raw) = .error .handshake ∧
    serverCommand (charCr :: charLf :: raw) = .error .handshake ∧ serverCommand [] = .error .handshake) ∧
  (∀ raw r, parseRequest raw = .ok r → lookupHeader nameKey r.headers = none → serverCommand raw = .error .handshake)

/-! ## The functions the commands share -/

/-- R67: PackHdr puts FIN, three zeros, the opcode, MASK and LEN7 in the word, most significant first, and UnpackHdr reads them
there. -/
def Obligations.HeaderFieldsInPlace : Prop :=
  (∀ (fin : Bool) (opc : BitVec 4) (mask : Bool) (len7 : BitVec 7),
    packHdr fin opc mask len7 = BitVec.ofBool fin ++ (0 : BitVec 3) ++ opc ++ BitVec.ofBool mask ++ len7) ∧
  (∀ (fin : Bool) (rsv : BitVec 3) (opc : BitVec 4) (mask : Bool) (len7 : BitVec 7),
    unpackHdr (BitVec.ofBool fin ++ rsv ++ opc ++ BitVec.ofBool mask ++ len7) =
      { fin := fin, rsv := rsv, opc := opc, mask := mask, len7 := len7 })

/-- R71: LenEnc of every 64-bit length; `none` stands for the raise of `ProtocolError`. -/
def Obligations.LenEncOfEveryLength : Prop :=
  ∀ l : BitVec 64,
    (l.toNat < 2 ^ 63 → lenEnc l.toNat = some (wireLen7 l.toNat, wireExt l.toNat)) ∧
    (2 ^ 63 ≤ l.toNat → lenEnc l.toNat = none)

/-- R76: ApplyMask byte by byte, and that it undoes itself; `none` stands for the raise of `InvalidKeyLength`. -/
def Obligations.ApplyMaskOfEveryKey : Prop :=
  ∀ p k : Bytes,
    (k.length ≠ 4 → applyMask p k = none) ∧
    (k.length = 4 → ∃ out, applyMask p k = some out ∧ out.length = p.length ∧ applyMask out k = some p ∧
      ∀ j, j < p.length → out.getD j 0 = p.getD j 0 ^^^ k.getD (j % 4) 0)

/-! ## The server's side of the handshake, end to end -/

/-- 45_handshake_host.md R101, R107: a request in which the lookup finds a key gives ACCEPT of that key; issued in an idle
instance that has room for it, it completes in its step, and the response the server then sends carries the accept value of
that key. Before DONE = 1, and after an error, there is no response to send (70_reset_and_hazards.md R125). The functions, the
step count and the unnamed operands are the model's choices (notes/assumptions/1.md, 21.md, 24.md). -/
def Obligations.ServerSendsTheAcceptValue : Prop :=
  (∀ (raw key : Bytes) (r : ParsedRequest) (s : State), parseRequest raw = .ok r →
    lookupHeader nameKey r.headers = some key → s.status.busy = false → key.length ≤ s.maxPayload.val →
    8 * (key.length + 36) < 2 ^ 64 → s.inputs = [.issue (asmAccept key)] →
      serverCommand raw = .ok (asmAccept key) ∧
      ∃ t, step s = .next t ∧ t.strm = s.strm ∧
        serverResponse t.hostView =
          some (textSwitching ++ crlf ++ textUpgrade ++ crlf ++ textConnection ++ crlf ++ nameAccept ++ textColon ++
            base64 (sha1 (key ++ Config.guid)) ++ crlf ++ crlf)) ∧
  (∀ s : State, s.status.busy = true ∨ s.status.done = false ∨ s.status.err = true → serverResponse s.hostView = none)
end

