-- ==== Sys2Proof/Laws/Bytes.lean ====
section
/-! SUPPORT. The small lemmas of the byte-order helpers, the masking key and the header words. -/

namespace Sys2Proof

@[simp] theorem be16_length (v : BitVec 16) : (be16 v).length = 2 := rfl
@[simp] theorem be32_length (v : BitVec 32) : (be32 v).length = 4 := rfl
@[simp] theorem be64_length (v : BitVec 64) : (be64 v).length = 8 := rfl

@[simp] theorem frombe_nil : frombe [] = 0 := rfl

theorem frombe_append_one (s : Bytes) (b : Byte) : frombe (s ++ [b]) = frombe s * 256 + b.toNat := by
  simp [frombe]

/-- A sequence of n bytes reads below 256^n. -/
theorem frombe_lt (s : Bytes) : frombe s < 256 ^ s.length := by
  induction s using List.reverseRecOn with
  | nil => simp
  | append_singleton s b ih =>
    rw [frombe_append_one, List.length_append, List.length_singleton, Nat.pow_succ]
    have := b.isLt
    omega

theorem frombe_two (a b : Byte) : frombe [a, b] = a.toNat * 256 + b.toNat := by simp [frombe]

/-- A header word read from the two bytes it is written as. -/
@[simp] theorem headerOfBytes_be16 (h : BitVec 16) : headerOfBytes (be16 h) = h := by
  apply BitVec.eq_of_toNat_eq
  have := h.isLt
  simp only [headerOfBytes, be16, frombe_two, BitVec.toNat_ofNat, BitVec.extractLsb'_toNat, Nat.shiftRight_eq_div_pow]
  omega

@[simp] theorem MaskKey.toBytes_length (k : MaskKey) : k.toBytes.length = 4 := rfl

@[simp] theorem MaskKey.ofBytes?_toBytes (k : MaskKey) : MaskKey.ofBytes? k.toBytes = some k := rfl

@[simp] theorem MaskKey.ofPulled_toBytes (k : MaskKey) : MaskKey.ofPulled k.toBytes = k := rfl

/-- A key has the 4 bytes it is given, and nothing else gives a key. -/
theorem MaskKey.ofBytes?_eq_some {bs : Bytes} {k : MaskKey} : MaskKey.ofBytes? bs = some k ↔ bs = k.toBytes := by
  constructor
  · intro h
    unfold MaskKey.ofBytes? at h
    split at h
    · cases h; rfl
    · cases h
  · rintro rfl; rfl

theorem MaskKey.ofBytes?_eq_none {bs : Bytes} : MaskKey.ofBytes? bs = none ↔ bs.length ≠ 4 := by
  match bs with
  | [] | [_] | [_, _] | [_, _, _] | [_, _, _, _] | _ :: _ :: _ :: _ :: _ :: _ => simp [MaskKey.ofBytes?]

theorem MaskKey.at_eq_getD (k : MaskKey) (j : Nat) : k.at j = k.toBytes.getD (j % 4) 0 := by
  have h : j % 4 = 0 ∨ j % 4 = 1 ∨ j % 4 = 2 ∨ j % 4 = 3 := by omega
  rcases h with h | h | h | h <;> simp [MaskKey.at, MaskKey.toBytes, h]

namespace Machine

@[simp] theorem xorFrom_nil (k : MaskKey) (j : Nat) : xorFrom k j [] = [] := rfl

@[simp] theorem xorFrom_cons (k : MaskKey) (j : Nat) (b : Byte) (bs : Bytes) :
    xorFrom k j (b :: bs) = (b ^^^ k.at j) :: xorFrom k (j + 1) bs := rfl

@[simp] theorem xorFrom_length (k : MaskKey) (j : Nat) (p : Bytes) : (xorFrom k j p).length = p.length := by
  induction p generalizing j with
  | nil => rfl
  | cons b bs ih => simp [ih]

@[simp] theorem xorMask_length (k : MaskKey) (p : Bytes) : (xorMask k p).length = p.length := xorFrom_length k 0 p

@[simp] theorem beBytes_length (n v : Nat) : (beBytes n v).length = n := by
  induction n generalizing v with
  | zero => rfl
  | succ n ih => simp [beBytes, ih]

end Machine

end Sys2Proof
end

