-- ==== Sys2Proof/Laws/State.lean ====
section
/-! SUPPORT. One lemma per field per update of State: what each named update writes, and that it leaves the rest. -/

namespace Sys2Proof.Machine

/-! ### latch -/

@[simp] theorem latch_phase (p : PortCmd) (s : State) : (latch p s).phase = .exec := rfl
@[simp] theorem latch_cmd (p : PortCmd) (s : State) : (latch p s).cmd = p.cw := rfl
@[simp] theorem latch_ops (p : PortCmd) (s : State) : (latch p s).ops = p.ops := rfl
@[simp] theorem latch_status (p : PortCmd) (s : State) : (latch p s).status = statusIssued := rfl
@[simp] theorem latch_errcode (p : PortCmd) (s : State) : (latch p s).errcode = 0 := rfl
@[simp] theorem latch_res (p : PortCmd) (s : State) : (latch p s).res = .cleared := rfl
@[simp] theorem latch_work (p : PortCmd) (s : State) : (latch p s).work = s.work := rfl
@[simp] theorem latch_sha (p : PortCmd) (s : State) : (latch p s).sha = s.sha := rfl
@[simp] theorem latch_strm (p : PortCmd) (s : State) : (latch p s).strm = s.strm := rfl
@[simp] theorem latch_maxPayload (p : PortCmd) (s : State) : (latch p s).maxPayload = s.maxPayload := rfl
@[simp] theorem latch_keyDraws (p : PortCmd) (s : State) : (latch p s).keyDraws = s.keyDraws := rfl
@[simp] theorem latch_drawCount (p : PortCmd) (s : State) : (latch p s).drawCount = s.drawCount := rfl
@[simp] theorem latch_inputs (p : PortCmd) (s : State) : (latch p s).inputs = s.inputs := rfl

/-! ### countPulled -/

@[simp] theorem countPulled_phase (n : Nat) (s : State) : (countPulled n s).phase = s.phase := rfl
@[simp] theorem countPulled_cmd (n : Nat) (s : State) : (countPulled n s).cmd = s.cmd := rfl
@[simp] theorem countPulled_ops (n : Nat) (s : State) : (countPulled n s).ops = s.ops := rfl
@[simp] theorem countPulled_status (n : Nat) (s : State) : (countPulled n s).status = s.status := rfl
@[simp] theorem countPulled_errcode (n : Nat) (s : State) : (countPulled n s).errcode = s.errcode := rfl
@[simp] theorem countPulled_res (n : Nat) (s : State) : (countPulled n s).res = s.res := rfl
@[simp] theorem countPulled_work (n : Nat) (s : State) : (countPulled n s).work = { s.work with cnt := s.work.cnt + BitVec.ofNat 64 n } := rfl
@[simp] theorem countPulled_sha (n : Nat) (s : State) : (countPulled n s).sha = s.sha := rfl
@[simp] theorem countPulled_strm (n : Nat) (s : State) : (countPulled n s).strm = s.strm := rfl
@[simp] theorem countPulled_maxPayload (n : Nat) (s : State) : (countPulled n s).maxPayload = s.maxPayload := rfl
@[simp] theorem countPulled_keyDraws (n : Nat) (s : State) : (countPulled n s).keyDraws = s.keyDraws := rfl
@[simp] theorem countPulled_drawCount (n : Nat) (s : State) : (countPulled n s).drawCount = s.drawCount := rfl
@[simp] theorem countPulled_inputs (n : Nat) (s : State) : (countPulled n s).inputs = s.inputs := rfl

/-! ### pullStream -/

@[simp] theorem pullStream_phase (n : Nat) (s : State) : (pullStream n s).phase = s.phase := rfl
@[simp] theorem pullStream_cmd (n : Nat) (s : State) : (pullStream n s).cmd = s.cmd := rfl
@[simp] theorem pullStream_ops (n : Nat) (s : State) : (pullStream n s).ops = s.ops := rfl
@[simp] theorem pullStream_status (n : Nat) (s : State) : (pullStream n s).status = statusHold s.status false := rfl
@[simp] theorem pullStream_errcode (n : Nat) (s : State) : (pullStream n s).errcode = s.errcode := rfl
@[simp] theorem pullStream_res (n : Nat) (s : State) : (pullStream n s).res = s.res := rfl
@[simp] theorem pullStream_work (n : Nat) (s : State) : (pullStream n s).work = { s.work with cnt := s.work.cnt + BitVec.ofNat 64 n } := rfl
@[simp] theorem pullStream_sha (n : Nat) (s : State) : (pullStream n s).sha = s.sha := rfl
@[simp] theorem pullStream_strm (n : Nat) (s : State) : (pullStream n s).strm = s.strm.drop n := rfl
@[simp] theorem pullStream_maxPayload (n : Nat) (s : State) : (pullStream n s).maxPayload = s.maxPayload := rfl
@[simp] theorem pullStream_keyDraws (n : Nat) (s : State) : (pullStream n s).keyDraws = s.keyDraws := rfl
@[simp] theorem pullStream_drawCount (n : Nat) (s : State) : (pullStream n s).drawCount = s.drawCount := rfl
@[simp] theorem pullStream_inputs (n : Nat) (s : State) : (pullStream n s).inputs = s.inputs := rfl

/-! ### clearCount -/

@[simp] theorem clearCount_phase (s : State) : (clearCount s).phase = s.phase := rfl
@[simp] theorem clearCount_cmd (s : State) : (clearCount s).cmd = s.cmd := rfl
@[simp] theorem clearCount_ops (s : State) : (clearCount s).ops = s.ops := rfl
@[simp] theorem clearCount_status (s : State) : (clearCount s).status = s.status := rfl
@[simp] theorem clearCount_errcode (s : State) : (clearCount s).errcode = s.errcode := rfl
@[simp] theorem clearCount_res (s : State) : (clearCount s).res = s.res := rfl
@[simp] theorem clearCount_work (s : State) : (clearCount s).work = { s.work with cnt := 0 } := rfl
@[simp] theorem clearCount_sha (s : State) : (clearCount s).sha = s.sha := rfl
@[simp] theorem clearCount_strm (s : State) : (clearCount s).strm = s.strm := rfl
@[simp] theorem clearCount_maxPayload (s : State) : (clearCount s).maxPayload = s.maxPayload := rfl
@[simp] theorem clearCount_keyDraws (s : State) : (clearCount s).keyDraws = s.keyDraws := rfl
@[simp] theorem clearCount_drawCount (s : State) : (clearCount s).drawCount = s.drawCount := rfl
@[simp] theorem clearCount_inputs (s : State) : (clearCount s).inputs = s.inputs := rfl

/-! ### latchHeader -/

@[simp] theorem latchHeader_phase (h : BitVec 16) (s : State) : (latchHeader h s).phase = s.phase := rfl
@[simp] theorem latchHeader_cmd (h : BitVec 16) (s : State) : (latchHeader h s).cmd = s.cmd := rfl
@[simp] theorem latchHeader_ops (h : BitVec 16) (s : State) : (latchHeader h s).ops = s.ops := rfl
@[simp] theorem latchHeader_status (h : BitVec 16) (s : State) : (latchHeader h s).status = s.status := rfl
@[simp] theorem latchHeader_errcode (h : BitVec 16) (s : State) : (latchHeader h s).errcode = s.errcode := rfl
@[simp] theorem latchHeader_res (h : BitVec 16) (s : State) : (latchHeader h s).res = s.res := rfl
@[simp] theorem latchHeader_work (h : BitVec 16) (s : State) : (latchHeader h s).work = { s.work with hdr := h } := rfl
@[simp] theorem latchHeader_sha (h : BitVec 16) (s : State) : (latchHeader h s).sha = s.sha := rfl
@[simp] theorem latchHeader_strm (h : BitVec 16) (s : State) : (latchHeader h s).strm = s.strm := rfl
@[simp] theorem latchHeader_maxPayload (h : BitVec 16) (s : State) : (latchHeader h s).maxPayload = s.maxPayload := rfl
@[simp] theorem latchHeader_keyDraws (h : BitVec 16) (s : State) : (latchHeader h s).keyDraws = s.keyDraws := rfl
@[simp] theorem latchHeader_drawCount (h : BitVec 16) (s : State) : (latchHeader h s).drawCount = s.drawCount := rfl
@[simp] theorem latchHeader_inputs (h : BitVec 16) (s : State) : (latchHeader h s).inputs = s.inputs := rfl

/-! ### arriveBytes -/

@[simp] theorem arriveBytes_phase (bs : Bytes) (s : State) : (arriveBytes bs s).phase = s.phase := rfl
@[simp] theorem arriveBytes_cmd (bs : Bytes) (s : State) : (arriveBytes bs s).cmd = s.cmd := rfl
@[simp] theorem arriveBytes_ops (bs : Bytes) (s : State) : (arriveBytes bs s).ops = s.ops := rfl
@[simp] theorem arriveBytes_status (bs : Bytes) (s : State) : (arriveBytes bs s).status = s.status := rfl
@[simp] theorem arriveBytes_errcode (bs : Bytes) (s : State) : (arriveBytes bs s).errcode = s.errcode := rfl
@[simp] theorem arriveBytes_res (bs : Bytes) (s : State) : (arriveBytes bs s).res = s.res := rfl
@[simp] theorem arriveBytes_work (bs : Bytes) (s : State) : (arriveBytes bs s).work = s.work := rfl
@[simp] theorem arriveBytes_sha (bs : Bytes) (s : State) : (arriveBytes bs s).sha = s.sha := rfl
@[simp] theorem arriveBytes_strm (bs : Bytes) (s : State) : (arriveBytes bs s).strm = s.strm ++ bs := rfl
@[simp] theorem arriveBytes_maxPayload (bs : Bytes) (s : State) : (arriveBytes bs s).maxPayload = s.maxPayload := rfl
@[simp] theorem arriveBytes_keyDraws (bs : Bytes) (s : State) : (arriveBytes bs s).keyDraws = s.keyDraws := rfl
@[simp] theorem arriveBytes_drawCount (bs : Bytes) (s : State) : (arriveBytes bs s).drawCount = s.drawCount := rfl
@[simp] theorem arriveBytes_inputs (bs : Bytes) (s : State) : (arriveBytes bs s).inputs = s.inputs := rfl

/-! ### takeBytes -/

@[simp] theorem takeBytes_phase (n : Nat) (s : State) : (takeBytes n s).phase = s.phase := rfl
@[simp] theorem takeBytes_cmd (n : Nat) (s : State) : (takeBytes n s).cmd = s.cmd := rfl
@[simp] theorem takeBytes_ops (n : Nat) (s : State) : (takeBytes n s).ops = s.ops := rfl
@[simp] theorem takeBytes_status (n : Nat) (s : State) : (takeBytes n s).status = s.status := rfl
@[simp] theorem takeBytes_errcode (n : Nat) (s : State) : (takeBytes n s).errcode = s.errcode := rfl
@[simp] theorem takeBytes_res (n : Nat) (s : State) : (takeBytes n s).res = s.res := rfl
@[simp] theorem takeBytes_work (n : Nat) (s : State) : (takeBytes n s).work = s.work := rfl
@[simp] theorem takeBytes_sha (n : Nat) (s : State) : (takeBytes n s).sha = s.sha := rfl
@[simp] theorem takeBytes_strm (n : Nat) (s : State) : (takeBytes n s).strm = s.strm.drop n := rfl
@[simp] theorem takeBytes_maxPayload (n : Nat) (s : State) : (takeBytes n s).maxPayload = s.maxPayload := rfl
@[simp] theorem takeBytes_keyDraws (n : Nat) (s : State) : (takeBytes n s).keyDraws = s.keyDraws := rfl
@[simp] theorem takeBytes_drawCount (n : Nat) (s : State) : (takeBytes n s).drawCount = s.drawCount := rfl
@[simp] theorem takeBytes_inputs (n : Nat) (s : State) : (takeBytes n s).inputs = s.inputs := rfl

/-! ### resetRegs -/

@[simp] theorem resetRegs_phase (s : State) : (resetRegs s).phase = .idle := rfl
@[simp] theorem resetRegs_cmd (s : State) : (resetRegs s).cmd = 0 := rfl
@[simp] theorem resetRegs_ops (s : State) : (resetRegs s).ops = .cleared := rfl
@[simp] theorem resetRegs_status (s : State) : (resetRegs s).status = .cleared := rfl
@[simp] theorem resetRegs_errcode (s : State) : (resetRegs s).errcode = 0 := rfl
@[simp] theorem resetRegs_res (s : State) : (resetRegs s).res = .cleared := rfl
@[simp] theorem resetRegs_work (s : State) : (resetRegs s).work = s.work := rfl
@[simp] theorem resetRegs_sha (s : State) : (resetRegs s).sha = s.sha := rfl
@[simp] theorem resetRegs_strm (s : State) : (resetRegs s).strm = s.strm := rfl
@[simp] theorem resetRegs_maxPayload (s : State) : (resetRegs s).maxPayload = s.maxPayload := rfl
@[simp] theorem resetRegs_keyDraws (s : State) : (resetRegs s).keyDraws = s.keyDraws := rfl
@[simp] theorem resetRegs_drawCount (s : State) : (resetRegs s).drawCount = s.drawCount := rfl
@[simp] theorem resetRegs_inputs (s : State) : (resetRegs s).inputs = s.inputs := rfl

/-! ### completed -/

@[simp] theorem completed_phase (r : ResRegs) (s : State) : (completed r s).phase = .idle := rfl
@[simp] theorem completed_cmd (r : ResRegs) (s : State) : (completed r s).cmd = s.cmd := rfl
@[simp] theorem completed_ops (r : ResRegs) (s : State) : (completed r s).ops = s.ops := rfl
@[simp] theorem completed_status (r : ResRegs) (s : State) : (completed r s).status = { busy := false, done := true, err := s.status.err, hold := false } := rfl
@[simp] theorem completed_errcode (r : ResRegs) (s : State) : (completed r s).errcode = s.errcode := rfl
@[simp] theorem completed_res (r : ResRegs) (s : State) : (completed r s).res = r := rfl
@[simp] theorem completed_work (r : ResRegs) (s : State) : (completed r s).work = s.work := rfl
@[simp] theorem completed_sha (r : ResRegs) (s : State) : (completed r s).sha = s.sha := rfl
@[simp] theorem completed_strm (r : ResRegs) (s : State) : (completed r s).strm = s.strm := rfl
@[simp] theorem completed_maxPayload (r : ResRegs) (s : State) : (completed r s).maxPayload = s.maxPayload := rfl
@[simp] theorem completed_keyDraws (r : ResRegs) (s : State) : (completed r s).keyDraws = s.keyDraws := rfl
@[simp] theorem completed_drawCount (r : ResRegs) (s : State) : (completed r s).drawCount = s.drawCount := rfl
@[simp] theorem completed_inputs (r : ResRegs) (s : State) : (completed r s).inputs = s.inputs := rfl

/-! ### errored -/

@[simp] theorem errored_phase (c : BitVec 4) (s : State) : (errored c s).phase = .idle := rfl
@[simp] theorem errored_cmd (c : BitVec 4) (s : State) : (errored c s).cmd = s.cmd := rfl
@[simp] theorem errored_ops (c : BitVec 4) (s : State) : (errored c s).ops = s.ops := rfl
@[simp] theorem errored_status (c : BitVec 4) (s : State) : (errored c s).status = { busy := false, done := true, err := true, hold := false } := rfl
@[simp] theorem errored_errcode (c : BitVec 4) (s : State) : (errored c s).errcode = c := rfl
@[simp] theorem errored_res (c : BitVec 4) (s : State) : (errored c s).res = s.res := rfl
@[simp] theorem errored_work (c : BitVec 4) (s : State) : (errored c s).work = s.work := rfl
@[simp] theorem errored_sha (c : BitVec 4) (s : State) : (errored c s).sha = s.sha := rfl
@[simp] theorem errored_strm (c : BitVec 4) (s : State) : (errored c s).strm = s.strm := rfl
@[simp] theorem errored_maxPayload (c : BitVec 4) (s : State) : (errored c s).maxPayload = s.maxPayload := rfl
@[simp] theorem errored_keyDraws (c : BitVec 4) (s : State) : (errored c s).keyDraws = s.keyDraws := rfl
@[simp] theorem errored_drawCount (c : BitVec 4) (s : State) : (errored c s).drawCount = s.drawCount := rfl
@[simp] theorem errored_inputs (c : BitVec 4) (s : State) : (errored c s).inputs = s.inputs := rfl

/-! ### issued -/

@[simp] theorem issued_phase (p : PortCmd) (s : State) : (issued p s).phase = s.phase := rfl
@[simp] theorem issued_cmd (p : PortCmd) (s : State) : (issued p s).cmd = p.cw := rfl
@[simp] theorem issued_ops (p : PortCmd) (s : State) : (issued p s).ops = p.ops := rfl
@[simp] theorem issued_status (p : PortCmd) (s : State) : (issued p s).status = { busy := true, done := false, err := false, hold := false } := rfl
@[simp] theorem issued_errcode (p : PortCmd) (s : State) : (issued p s).errcode = 0 := rfl
@[simp] theorem issued_res (p : PortCmd) (s : State) : (issued p s).res = .cleared := rfl
@[simp] theorem issued_work (p : PortCmd) (s : State) : (issued p s).work = s.work := rfl
@[simp] theorem issued_sha (p : PortCmd) (s : State) : (issued p s).sha = s.sha := rfl
@[simp] theorem issued_strm (p : PortCmd) (s : State) : (issued p s).strm = s.strm := rfl
@[simp] theorem issued_maxPayload (p : PortCmd) (s : State) : (issued p s).maxPayload = s.maxPayload := rfl
@[simp] theorem issued_keyDraws (p : PortCmd) (s : State) : (issued p s).keyDraws = s.keyDraws := rfl
@[simp] theorem issued_drawCount (p : PortCmd) (s : State) : (issued p s).drawCount = s.drawCount := rfl
@[simp] theorem issued_inputs (p : PortCmd) (s : State) : (issued p s).inputs = s.inputs := rfl

/-! ### waiting -/

@[simp] theorem waiting_phase (ph : Phase) (n : Nat) (s : State) : (waiting ph n s).phase = ph := rfl
@[simp] theorem waiting_cmd (ph : Phase) (n : Nat) (s : State) : (waiting ph n s).cmd = s.cmd := rfl
@[simp] theorem waiting_ops (ph : Phase) (n : Nat) (s : State) : (waiting ph n s).ops = s.ops := rfl
@[simp] theorem waiting_status (ph : Phase) (n : Nat) (s : State) : (waiting ph n s).status = { s.status with hold := decide (s.strm.length < n) } := rfl
@[simp] theorem waiting_errcode (ph : Phase) (n : Nat) (s : State) : (waiting ph n s).errcode = s.errcode := rfl
@[simp] theorem waiting_res (ph : Phase) (n : Nat) (s : State) : (waiting ph n s).res = s.res := rfl
@[simp] theorem waiting_work (ph : Phase) (n : Nat) (s : State) : (waiting ph n s).work = s.work := rfl
@[simp] theorem waiting_sha (ph : Phase) (n : Nat) (s : State) : (waiting ph n s).sha = s.sha := rfl
@[simp] theorem waiting_strm (ph : Phase) (n : Nat) (s : State) : (waiting ph n s).strm = s.strm := rfl
@[simp] theorem waiting_maxPayload (ph : Phase) (n : Nat) (s : State) : (waiting ph n s).maxPayload = s.maxPayload := rfl
@[simp] theorem waiting_keyDraws (ph : Phase) (n : Nat) (s : State) : (waiting ph n s).keyDraws = s.keyDraws := rfl
@[simp] theorem waiting_drawCount (ph : Phase) (n : Nat) (s : State) : (waiting ph n s).drawCount = s.drawCount := rfl
@[simp] theorem waiting_inputs (ph : Phase) (n : Nat) (s : State) : (waiting ph n s).inputs = s.inputs := rfl

/-! ### consumed -/

@[simp] theorem consumed_phase (n : Nat) (s : State) : (consumed n s).phase = s.phase := rfl
@[simp] theorem consumed_cmd (n : Nat) (s : State) : (consumed n s).cmd = s.cmd := rfl
@[simp] theorem consumed_ops (n : Nat) (s : State) : (consumed n s).ops = s.ops := rfl
@[simp] theorem consumed_status (n : Nat) (s : State) : (consumed n s).status = { s.status with hold := false } := rfl
@[simp] theorem consumed_errcode (n : Nat) (s : State) : (consumed n s).errcode = s.errcode := rfl
@[simp] theorem consumed_res (n : Nat) (s : State) : (consumed n s).res = s.res := rfl
@[simp] theorem consumed_work (n : Nat) (s : State) : (consumed n s).work = { s.work with cnt := s.work.cnt + BitVec.ofNat 64 n } := rfl
@[simp] theorem consumed_sha (n : Nat) (s : State) : (consumed n s).sha = s.sha := rfl
@[simp] theorem consumed_strm (n : Nat) (s : State) : (consumed n s).strm = s.strm.drop n := rfl
@[simp] theorem consumed_maxPayload (n : Nat) (s : State) : (consumed n s).maxPayload = s.maxPayload := rfl
@[simp] theorem consumed_keyDraws (n : Nat) (s : State) : (consumed n s).keyDraws = s.keyDraws := rfl
@[simp] theorem consumed_drawCount (n : Nat) (s : State) : (consumed n s).drawCount = s.drawCount := rfl
@[simp] theorem consumed_inputs (n : Nat) (s : State) : (consumed n s).inputs = s.inputs := rfl

/-! ### forgetWork -/

@[simp] theorem forgetWork_phase (s : State) : (s.forgetWork).phase = s.phase := rfl
@[simp] theorem forgetWork_cmd (s : State) : (s.forgetWork).cmd = s.cmd := rfl
@[simp] theorem forgetWork_ops (s : State) : (s.forgetWork).ops = s.ops := rfl
@[simp] theorem forgetWork_status (s : State) : (s.forgetWork).status = s.status := rfl
@[simp] theorem forgetWork_errcode (s : State) : (s.forgetWork).errcode = s.errcode := rfl
@[simp] theorem forgetWork_res (s : State) : (s.forgetWork).res = s.res := rfl
@[simp] theorem forgetWork_work (s : State) : (s.forgetWork).work = .powerOn := rfl
@[simp] theorem forgetWork_sha (s : State) : (s.forgetWork).sha = .powerOn := rfl
@[simp] theorem forgetWork_strm (s : State) : (s.forgetWork).strm = s.strm := rfl
@[simp] theorem forgetWork_maxPayload (s : State) : (s.forgetWork).maxPayload = s.maxPayload := rfl
@[simp] theorem forgetWork_keyDraws (s : State) : (s.forgetWork).keyDraws = s.keyDraws := rfl
@[simp] theorem forgetWork_drawCount (s : State) : (s.forgetWork).drawCount = s.drawCount := rfl
@[simp] theorem forgetWork_inputs (s : State) : (s.forgetWork).inputs = s.inputs := rfl

/-! ### settled -/

@[simp] theorem settled_phase (s : State) : s.settled.phase = s.phase := rfl
@[simp] theorem settled_cmd (s : State) : s.settled.cmd = s.cmd := rfl
@[simp] theorem settled_ops (s : State) : s.settled.ops = s.ops := rfl
@[simp] theorem settled_status (s : State) : s.settled.status = s.status := rfl
@[simp] theorem settled_errcode (s : State) : s.settled.errcode = s.errcode := rfl
@[simp] theorem settled_res (s : State) : s.settled.res = s.res := rfl
@[simp] theorem settled_strm (s : State) : s.settled.strm = s.strm := rfl
@[simp] theorem settled_maxPayload (s : State) : s.settled.maxPayload = s.maxPayload := rfl
@[simp] theorem settled_keyDraws (s : State) : s.settled.keyDraws = s.keyDraws := rfl
@[simp] theorem settled_drawCount (s : State) : s.settled.drawCount = s.drawCount := rfl
@[simp] theorem settled_inputs (s : State) : s.settled.inputs = s.inputs := rfl
@[simp] theorem settled_work (s : State) : s.settled.work = s.settledWork := rfl
@[simp] theorem settled_sha (s : State) : s.settled.sha = .powerOn := rfl
@[simp] theorem settled_forgetWork (s : State) : s.settled.forgetWork = s.forgetWork := rfl

/-- With no command in flight, no working register is written by one. -/
theorem settled_idle {s : State} (h : s.status.busy = false) : s.settled = s.forgetWork := by
  simp [State.settled, State.settledWork, State.forgetWork, h]

end Sys2Proof.Machine
end

