-- ==== Sys2Proof/Laws/Ops.lean ====
section
/-! SUPPORT. One lemma per shared operation: everything it can do, in the terms of Sys2Proof/Safety.lean. Later proofs cite
these and do not unfold the operations. -/

namespace Sys2Proof.Machine

/-! ## The two ends of a command -/

@[simp] theorem complete_eq (r : ResRegs) (s : State) : complete r s = .next (completed r s) := rfl

@[simp] theorem raise_eq (e : ErrKind) (s : State) : raise e s = .next (errored e.code s) := rfl

@[simp] theorem ErrKind.code_truncated : ErrKind.truncated.code = 1 := rfl
@[simp] theorem ErrKind.code_protocol : ErrKind.protocol.code = 2 := rfl
@[simp] theorem ErrKind.code_keyLength : ErrKind.keyLength.code = 3 := rfl
@[simp] theorem ErrKind.code_encoding : ErrKind.encoding.code = 4 := rfl
@[simp] theorem ErrKind.code_illegalCommand : ErrKind.illegalCommand.code = 6 := rfl

/-! ## Pull -/

theorem onBuffer_short {n : Nat} {s : State} (k : Bytes → State → Result)
    (h : s.ops.buf.length < s.work.cnt.toNat + n) : onBuffer n s k = .next (errored 1 s) := by
  simp [onBuffer, h]

theorem onBuffer_enough {n : Nat} {s : State} (k : Bytes → State → Result)
    (h : s.work.cnt.toNat + n ≤ s.ops.buf.length) :
    onBuffer n s k = k ((s.ops.buf.drop s.work.cnt.toNat).take n) (countPulled n s) := by
  simp [onBuffer, Nat.not_lt.mpr h]

/-- What a buffer-mode pull can do. -/
theorem onBuffer_cases (n : Nat) (s : State) (k : Bytes → State → Result) :
    (s.ops.buf.length < s.work.cnt.toNat + n ∧ onBuffer n s k = .next (errored 1 s)) ∨
      (s.work.cnt.toNat + n ≤ s.ops.buf.length ∧
        onBuffer n s k = k ((s.ops.buf.drop s.work.cnt.toNat).take n) (countPulled n s)) := by
  rcases Nat.lt_or_ge s.ops.buf.length (s.work.cnt.toNat + n) with h | h
  · exact .inl ⟨h, onBuffer_short k h⟩
  · exact .inr ⟨h, onBuffer_enough k h⟩

theorem pullStream_eq (n : Nat) (s : State) : pullStream n s = consumed n s := rfl

theorem onStream_short {n : Nat} {s : State} (k : Bytes → State → Result) (h : s.strm.length < n) :
    onStream n s k = .next { s with status := { s.status with hold := true } } := by
  simp [onStream, h, holdStream, statusHold]

theorem onStream_enough {n : Nat} {s : State} (k : Bytes → State → Result) (h : n ≤ s.strm.length) :
    onStream n s k = k (s.strm.take n) (consumed n s) := by
  simp [onStream, Nat.not_lt.mpr h, pullStream_eq]

/-- What a stream-mode pull can do. -/
theorem onStream_cases (n : Nat) (s : State) (k : Bytes → State → Result) :
    (s.strm.length < n ∧ onStream n s k = .next { s with status := { s.status with hold := true } }) ∨
      (n ≤ s.strm.length ∧ onStream n s k = k (s.strm.take n) (consumed n s)) := by
  rcases Nat.lt_or_ge s.strm.length n with h | h
  · exact .inl ⟨h, onStream_short k h⟩
  · exact .inr ⟨h, onStream_enough k h⟩

@[simp] theorem enterPhase_eq (ph : Phase) (n : Nat) (s : State) : enterPhase ph n s = .next (waiting ph n s) := rfl

@[simp] theorem streamNext_eq (ph : Phase) (s : State) :
    streamNext ph s = .next (waiting ph (phaseNeed ph s.work) s) := rfl

/-! ## The draw -/

theorem draw4_queued {s : State} {k : MaskKey} {ks : List MaskKey} (h : s.keyDraws = k :: ks) :
    draw4 s = (k, { s with keyDraws := ks }) := by
  simp [draw4, h]

theorem draw4_free {s : State} (h : s.keyDraws = []) :
    draw4 s = (Config.maskKeySource s.drawCount, { s with drawCount := s.drawCount + 1 }) := by
  simp [draw4, h]

/-- A draw changes the draws only. -/
theorem draw4_frame (s : State) :
    ∃ ks n, (draw4 s).2 = { s with keyDraws := ks, drawCount := n } := by
  rcases h : s.keyDraws with _ | ⟨k, ks⟩
  · exact ⟨s.keyDraws, s.drawCount + 1, by simp [draw4_free h]⟩
  · exact ⟨ks, s.drawCount, by simp [draw4_queued h]⟩

/-! ## Which agent moves -/

theorem step_engine_empty {s : State} (h : s.inputs = []) : step s = engineStep s := by
  simp [step, agentStep, h]

theorem step_engine {s : State} {rest : List Input} (h : s.inputs = .engine :: rest) :
    step s = engineStep { s with inputs := rest } := by
  simp [step, agentStep, h]

theorem step_issue {s : State} {p : PortCmd} {rest : List Input} (h : s.inputs = .issue p :: rest)
    (hb : s.status.busy = false) : step s = issueStep p { s with inputs := rest } := by
  simp [step, agentStep, h, hb]

theorem step_issue_busy {s : State} {p : PortCmd} {rest : List Input} (h : s.inputs = .issue p :: rest)
    (hb : s.status.busy = true) : step s = engineStep s := by
  simp [step, agentStep, h, hb]

theorem step_arrive {s : State} {bs : Bytes} {rest : List Input} (h : s.inputs = .arrive bs :: rest) :
    step s = .next { s with strm := s.strm ++ bs, inputs := rest } := by
  simp [step, agentStep, h, arriveBytes]

theorem step_take {s : State} {n : Nat} {rest : List Input} (h : s.inputs = .take n :: rest) :
    step s = .next { s with strm := s.strm.drop n, inputs := rest } := by
  simp [step, agentStep, h, takeBytes]

theorem step_reset {s : State} {rest : List Input} (h : s.inputs = .reset :: rest) :
    step s = .next { resetRegs s with inputs := rest } := by
  simp [step, agentStep, h, resetRegs]

theorem engineStep_idle {s : State} (h : s.status.busy = false) : engineStep s = .next s := by
  simp [engineStep, h]

theorem engineStep_fdecs {s : State} {txt : Bool} (hb : s.status.busy = true)
    (hc : decodeCommand s.cmd = .ok (.fdecs txt)) : engineStep s = engineFrame txt s := by
  simp [engineStep, hb, hc]

theorem engineStep_ldecs {s : State} {len7 : BitVec 7} (hb : s.status.busy = true)
    (hc : decodeCommand s.cmd = .ok (.ldecs len7)) : engineStep s = engineLength len7 s := by
  simp [engineStep, hb, hc]

/-- What the engine's move can be. -/
theorem engineStep_cases (s : State) :
    (s.status.busy = false ∧ engineStep s = .next s) ∨
      (s.status.busy = true ∧
        ((∃ txt, decodeCommand s.cmd = .ok (.fdecs txt) ∧ engineStep s = engineFrame txt s) ∨
          (∃ len7, decodeCommand s.cmd = .ok (.ldecs len7) ∧ engineStep s = engineLength len7 s) ∨
          engineStep s = .fault .strayPhase)) := by
  cases hb : s.status.busy
  · exact .inl ⟨rfl, engineStep_idle hb⟩
  · refine .inr ⟨rfl, ?_⟩
    unfold engineStep
    rw [if_pos hb]
    split
    · rename_i txt h; exact .inl ⟨txt, h, rfl⟩
    · rename_i len7 h; exact .inr (.inl ⟨len7, h, rfl⟩)
    · exact .inr (.inr rfl)
    · exact .inr (.inr rfl)

/-- What an issue can be. -/
theorem issueStep_cases (p : PortCmd) (s : State) :
    (p.ops.fits s.maxPayload.val = false ∧ issueStep p s = .refused .operandOverCapacity) ∨
      (p.ops.fits s.maxPayload.val = true ∧
        ((∃ i, decodeCommand p.cw = .ok i ∧ issueStep p s = exec i (latch p s)) ∨
          (∃ e, decodeCommand p.cw = .error e ∧ issueStep p s = .next (errored 6 (latch p s))))) := by
  cases hf : p.ops.fits s.maxPayload.val
  · exact .inl ⟨rfl, by simp [issueStep, hf]⟩
  · refine .inr ⟨rfl, ?_⟩
    cases hd : decodeCommand p.cw with
    | ok i => exact .inl ⟨i, rfl, by simp [issueStep, hf, runIssued, hd]⟩
    | error e => exact .inr ⟨e, rfl, by simp [issueStep, hf, runIssued, hd]⟩

end Sys2Proof.Machine
end

