-- ==== Sys2Proof/Laws/Frame.lean ====
section
/-! SUPPORT. What the phases of a frame decode can do: one lemma per phase, said once in terms of what the phases keep and of
how they end. -/

namespace Sys2Proof.Machine

/-- `t` is `s` but for PHASE, STATUS, ERRCODE, the working registers, STRM and the results of a frame decode. -/
structure DecodeKeeps (s t : State) : Prop where
  cmd : t.cmd = s.cmd
  ops : t.ops = s.ops
  sha : t.sha = s.sha
  maxPayload : t.maxPayload = s.maxPayload
  keyDraws : t.keyDraws = s.keyDraws
  drawCount : t.drawCount = s.drawCount
  inputs : t.inputs = s.inputs
  res : blankFrameResults t.res = blankFrameResults s.res

theorem DecodeKeeps.refl (s : State) : DecodeKeeps s s := ⟨rfl, rfl, rfl, rfl, rfl, rfl, rfl, rfl⟩

theorem DecodeKeeps.trans {s t u : State} (h : DecodeKeeps s t) (k : DecodeKeeps t u) : DecodeKeeps s u :=
  ⟨k.cmd.trans h.cmd, k.ops.trans h.ops, k.sha.trans h.sha, k.maxPayload.trans h.maxPayload,
    k.keyDraws.trans h.keyDraws, k.drawCount.trans h.drawCount, k.inputs.trans h.inputs, k.res.trans h.res⟩

/-- How a frame decode ends at `s`, without naming the working registers it leaves: an error exit with one of the codes of
`cs`, or completion with the frame's results. -/
def DecodeEnds (cs : List (BitVec 4)) (s t : State) : Prop :=
  (∃ c ∈ cs, ∃ w, t = errored c { s with work := w }) ∨
    (∃ r w, blankFrameResults r = blankFrameResults s.res ∧ t = completed r { s with work := w })

theorem DecodeEnds.keeps {cs : List (BitVec 4)} {s t : State} (h : DecodeEnds cs s t) : DecodeKeeps s t := by
  rcases h with ⟨c, -, w, rfl⟩ | ⟨r, w, hr, rfl⟩
  · exact ⟨rfl, rfl, rfl, rfl, rfl, rfl, rfl, rfl⟩
  · exact ⟨rfl, rfl, rfl, rfl, rfl, rfl, rfl, hr⟩

theorem DecodeEnds.strm {cs : List (BitVec 4)} {s t : State} (h : DecodeEnds cs s t) : t.strm = s.strm := by
  rcases h with ⟨c, -, w, rfl⟩ | ⟨r, w, hr, rfl⟩ <;> rfl

theorem DecodeEnds.mono {cs ds : List (BitVec 4)} {s t : State} (hs : cs ⊆ ds) (h : DecodeEnds cs s t) :
    DecodeEnds ds s t := by
  rcases h with ⟨c, hc, w, rfl⟩ | h
  · exact .inl ⟨c, hs hc, w, rfl⟩
  · exact .inr h

/-- Only the working registers of the starting state may differ. -/
theorem DecodeEnds.of_work {cs : List (BitVec 4)} {s t : State} {w : WorkRegs}
    (h : DecodeEnds cs { s with work := w } t) : DecodeEnds cs s t := h

/-- The codes the close split and the text check can raise (43_frame_codec.md R86, R87). -/
def postCodes (txt : Bool) : List (BitVec 4) := if txt then [2, 4] else [2]

/-- F_POST always ends the command. -/
theorem finishFrame_ends (txt : Bool) (s : State) :
    ∃ t, finishFrame txt s = .next t ∧ DecodeEnds (postCodes txt) s t := by
  unfold finishFrame
  split
  · refine ⟨_, rfl, .inl ⟨2, ?_, s.work, rfl⟩⟩
    cases txt <;> simp [postCodes]
  · rename_i code split pay _
    dsimp only
    split
    · rename_i h
      refine ⟨_, rfl, .inl ⟨4, ?_, _, rfl⟩⟩
      cases txt <;> simp_all [textRefused, postCodes]
    · exact ⟨_, rfl, .inr ⟨decodedResults s.work code split pay s.res, { s.work with pay := pay }, rfl, rfl⟩⟩

/-- F_PAY always ends the command. -/
theorem payPhase_ends (txt : Bool) (raw : Bytes) (s : State) :
    ∃ t, payPhase txt raw s = .next t ∧ DecodeEnds (postCodes txt) s t := by
  obtain ⟨t, ht, he⟩ := finishFrame_ends txt
    { s with work := { s.work with pay := if s.work.mask then xorMask s.work.key raw else raw } }
  exact ⟨t, ht, he⟩

/-- After the key: the payload phase, or the end of the command. -/
theorem afterKey_cases (next : Phase → State → Result) (txt : Bool) (s : State) :
    (s.work.plen ≠ 0 ∧ afterKey next txt s = next .fPay s) ∨
      (s.work.plen = 0 ∧ ∃ t, afterKey next txt s = .next t ∧ DecodeEnds (postCodes txt) s t) := by
  by_cases h : s.work.plen = 0
  · refine .inr ⟨h, ?_⟩
    obtain ⟨t, ht, he⟩ := finishFrame_ends txt { s with work := { s.work with pay := [] } }
    exact ⟨t, by unfold afterKey; rw [if_pos h]; exact ht, he⟩
  · exact .inl ⟨h, if_neg h⟩

/-- After the length: the refusal of R89, the key phase, the payload phase, or the end of the command. -/
theorem afterLength_cases (next : Phase → State → Result) (txt : Bool) (plen : BitVec 64) (s : State) :
    (s.maxPayload.val < plen.toNat ∧ afterLength next txt plen s = .refused .payloadOverCapacity) ∨
      (plen.toNat ≤ s.maxPayload.val ∧
        ((s.work.mask = true ∧
            afterLength next txt plen s = next .fKey { s with work := { s.work with plen := plen } }) ∨
          (s.work.mask = false ∧ plen ≠ 0 ∧
            afterLength next txt plen s = next .fPay { s with work := { s.work with plen := plen } }) ∨
          (s.work.mask = false ∧ plen = 0 ∧
            ∃ t, afterLength next txt plen s = .next t ∧ DecodeEnds (postCodes txt) s t))) := by
  by_cases hm : s.maxPayload.val < plen.toNat
  · exact .inl ⟨hm, if_pos hm⟩
  · refine .inr ⟨Nat.le_of_not_lt hm, ?_⟩
    have e : afterLength next txt plen s =
        if s.work.mask then next .fKey { s with work := { s.work with plen := plen } }
        else afterKey next txt { s with work := { s.work with plen := plen } } := if_neg hm
    cases hk : s.work.mask
    · rw [hk] at e
      rcases afterKey_cases next txt { s with work := { s.work with plen := plen } } with ⟨h, e'⟩ | ⟨h, t, e', d⟩
      · exact .inr (.inl ⟨rfl, h, e.trans e'⟩)
      · exact .inr (.inr ⟨rfl, h, t, e.trans e', d⟩)
    · rw [hk] at e
      exact .inl ⟨rfl, e⟩

/-- F_EXT: `ProtocolError`, or what follows the length. -/
theorem extPhase_cases (next : Phase → State → Result) (txt : Bool) (ext : Bytes) (s : State) :
    (resolveLen s.work.len7 ext = none ∧ extPhase next txt ext s = .next (errored 2 s)) ∨
      (∃ v, resolveLen s.work.len7 ext = some v ∧ extPhase next txt ext s = afterLength next txt v s) := by
  unfold extPhase
  cases h : resolveLen s.work.len7 ext with
  | none => exact .inl ⟨rfl, rfl⟩
  | some v => exact .inr ⟨v, rfl, rfl⟩

/-- The state F_HDR leaves: the W_* fields of the header (43_frame_codec.md R83). -/
def headerLatched (f : HeaderFields) (s : State) : State :=
  { s with work := { s.work with fin := f.fin, rsv := f.rsv, opc := f.opc, mask := f.mask, len7 := f.len7 } }

/-- F_HDR: the inline length, or F_EXT. -/
theorem headerPhase_cases (next : Phase → State → Result) (txt : Bool) (f : HeaderFields) (s : State) :
    (extBytes f.len7 = 0 ∧
        headerPhase next txt f s = afterLength next txt (f.len7.setWidth 64) (headerLatched f s)) ∨
      (extBytes f.len7 ≠ 0 ∧ headerPhase next txt f s = next .fExt (headerLatched f s)) := by
  by_cases h : extBytes f.len7 = 0
  · exact .inl ⟨h, if_pos h⟩
  · exact .inr ⟨h, if_neg h⟩

/-- A slot announces 0, 2 or 8 bytes. -/
theorem extBytes_cases (len7 : BitVec 7) : extBytes len7 = 0 ∨ extBytes len7 = 2 ∨ extBytes len7 = 8 := by
  unfold extBytes
  split
  · exact .inr (.inl rfl)
  · split
    · exact .inr (.inr rfl)
    · exact .inl rfl

end Sys2Proof.Machine
end

