-- ==== Sys2Proof/Laws/PerInstr.lean ====
section
/-! SUPPORT. One lemma per constructor: the table's number of an instruction's word is read back as that word, so the bits of
spec/opcode_table.json are the bits of the encodings. -/

namespace Sys2Proof.Laws

/-- A command word is read back from its 32-bit number. -/
theorem tableCode_command (w : BitVec 32) : tableCode 32 w.toNat = some (.command w) := by
  have := w.isLt
  simp [tableCode, this]

/-- A base header is read back from its 16-bit number, through its two wire bytes. -/
theorem tableCode_header (h : BitVec 16) : tableCode 16 h.toNat = some (.header h) := by
  have := h.isLt
  simp [tableCode, this]

/-- The table's number of the instruction's word, in the table's number of bits, is read back as the word. -/
def TableNumbersWord.Statement (i : Instr) : Prop :=
  match encode i with
  | .command w => tableCode 32 w.toNat = some (.command w)
  | .header h => tableCode 16 h.toNat = some (.header h)

theorem TableNumbersWord.henc (fin : Bool) (opc : BitVec 4) (msk : Bool) (len7 : BitVec 7) : TableNumbersWord.Statement (.henc fin opc msk len7) :=
  tableCode_command _

theorem TableNumbersWord.hdec : TableNumbersWord.Statement .hdec :=
  tableCode_command _

theorem TableNumbersWord.lenc : TableNumbersWord.Statement .lenc :=
  tableCode_command _

theorem TableNumbersWord.ldecb (len7 : BitVec 7) : TableNumbersWord.Statement (.ldecb len7) :=
  tableCode_command _

theorem TableNumbersWord.ldecs (len7 : BitVec 7) : TableNumbersWord.Statement (.ldecs len7) :=
  tableCode_command _

theorem TableNumbersWord.mask : TableNumbersWord.Statement .mask :=
  tableCode_command _

theorem TableNumbersWord.fenc (opc : BitVec 4) (fin msk ksup : Bool) : TableNumbersWord.Statement (.fenc opc fin msk ksup) :=
  tableCode_command _

theorem TableNumbersWord.fdecb (txt : Bool) : TableNumbersWord.Statement (.fdecb txt) :=
  tableCode_command _

theorem TableNumbersWord.fdecs (txt : Bool) : TableNumbersWord.Statement (.fdecs txt) :=
  tableCode_command _

theorem TableNumbersWord.utf8v : TableNumbersWord.Statement .utf8v :=
  tableCode_command _

theorem TableNumbersWord.accept : TableNumbersWord.Statement .accept :=
  tableCode_command _

theorem TableNumbersWord.wsCont (fin : Bool) (rsv : BitVec 3) (msk : Bool) (len7 : BitVec 7) :
    TableNumbersWord.Statement (.wsCont fin rsv msk len7) := tableCode_header _

theorem TableNumbersWord.wsText (fin : Bool) (rsv : BitVec 3) (msk : Bool) (len7 : BitVec 7) :
    TableNumbersWord.Statement (.wsText fin rsv msk len7) := tableCode_header _

theorem TableNumbersWord.wsBinary (fin : Bool) (rsv : BitVec 3) (msk : Bool) (len7 : BitVec 7) :
    TableNumbersWord.Statement (.wsBinary fin rsv msk len7) := tableCode_header _

theorem TableNumbersWord.wsRsv3 (fin : Bool) (rsv : BitVec 3) (msk : Bool) (len7 : BitVec 7) :
    TableNumbersWord.Statement (.wsRsv3 fin rsv msk len7) := tableCode_header _

theorem TableNumbersWord.wsRsv4 (fin : Bool) (rsv : BitVec 3) (msk : Bool) (len7 : BitVec 7) :
    TableNumbersWord.Statement (.wsRsv4 fin rsv msk len7) := tableCode_header _

theorem TableNumbersWord.wsRsv5 (fin : Bool) (rsv : BitVec 3) (msk : Bool) (len7 : BitVec 7) :
    TableNumbersWord.Statement (.wsRsv5 fin rsv msk len7) := tableCode_header _

theorem TableNumbersWord.wsRsv6 (fin : Bool) (rsv : BitVec 3) (msk : Bool) (len7 : BitVec 7) :
    TableNumbersWord.Statement (.wsRsv6 fin rsv msk len7) := tableCode_header _

theorem TableNumbersWord.wsRsv7 (fin : Bool) (rsv : BitVec 3) (msk : Bool) (len7 : BitVec 7) :
    TableNumbersWord.Statement (.wsRsv7 fin rsv msk len7) := tableCode_header _

theorem TableNumbersWord.wsClose (fin : Bool) (rsv : BitVec 3) (msk : Bool) (len7 : BitVec 7) :
    TableNumbersWord.Statement (.wsClose fin rsv msk len7) := tableCode_header _

theorem TableNumbersWord.wsPing (fin : Bool) (rsv : BitVec 3) (msk : Bool) (len7 : BitVec 7) :
    TableNumbersWord.Statement (.wsPing fin rsv msk len7) := tableCode_header _

theorem TableNumbersWord.wsPong (fin : Bool) (rsv : BitVec 3) (msk : Bool) (len7 : BitVec 7) :
    TableNumbersWord.Statement (.wsPong fin rsv msk len7) := tableCode_header _

theorem TableNumbersWord.wsRsv11 (fin : Bool) (rsv : BitVec 3) (msk : Bool) (len7 : BitVec 7) :
    TableNumbersWord.Statement (.wsRsv11 fin rsv msk len7) := tableCode_header _

theorem TableNumbersWord.wsRsv12 (fin : Bool) (rsv : BitVec 3) (msk : Bool) (len7 : BitVec 7) :
    TableNumbersWord.Statement (.wsRsv12 fin rsv msk len7) := tableCode_header _

theorem TableNumbersWord.wsRsv13 (fin : Bool) (rsv : BitVec 3) (msk : Bool) (len7 : BitVec 7) :
    TableNumbersWord.Statement (.wsRsv13 fin rsv msk len7) := tableCode_header _

theorem TableNumbersWord.wsRsv14 (fin : Bool) (rsv : BitVec 3) (msk : Bool) (len7 : BitVec 7) :
    TableNumbersWord.Statement (.wsRsv14 fin rsv msk len7) := tableCode_header _

theorem TableNumbersWord.wsRsv15 (fin : Bool) (rsv : BitVec 3) (msk : Bool) (len7 : BitVec 7) :
    TableNumbersWord.Statement (.wsRsv15 fin rsv msk len7) := tableCode_header _

end Sys2Proof.Laws
end

