-- ==== Sys2Proof/Tests/Slice0.lean ====
section
/-! SUPPORT. The model's own tests. Expected values are those of spec/95_test_vectors.md (its section in each docstring) or
words written out bit by bit from 30_encoding.md; after them, a witness for the hypotheses of every statement that has some. -/

namespace Sys2Proof.Tests

open Sys2Proof.Machine

/-! ## Small states -/

/-- A command just issued with operands `o`, as its meaning finds it. -/
def issuedWith (o : OpRegs) : State := { State.reset with ops := o, phase := .exec, status := statusIssued }

/-- A stream command `cw` in flight in phase `ph`. -/
def inFlight (cw : BitVec 32) (ph : Phase) (w : WorkRegs) (strm : Bytes) : State :=
  { State.reset with cmd := cw, phase := ph, status := statusIssued, work := w, strm := strm }

/-- An instance whose MAX_PAYLOAD is 8. -/
def smallMachine : State := .powerOn ⟨8, by decide⟩

/-- An idle instance with one issue waiting. -/
def about (p : PortCmd) : State := { State.reset with inputs := [.issue p] }

/-- The result registers of a next state. -/
def results : Result → Option ResRegs
  | .next t => some t.res
  | .fault _ => none
  | .refused _ => none

/-- ERRCODE of a next state. -/
def errcodeOf : Result → Option (BitVec 4)
  | .next t => some t.errcode
  | .fault _ => none
  | .refused _ => none

/-- PHASE, HOLD and what is left of STRM, of a next state. -/
def streamOf : Result → Option (Phase × Bool × Bytes)
  | .next t => some (t.phase, t.status.hold, t.strm)
  | .fault _ => none
  | .refused _ => none

/-- The machine goes on. -/
def goesOn : Result → Bool
  | .next _ => true
  | .fault _ => false
  | .refused _ => false

/-! ## Well-formedness: FENC with KSUP = 1 and MSK = 0 is the one ill-formed term (R61) -/

theorem test_wellformed_refuses_key_without_mask : WellFormed (.fenc 1 true false true) = false := by decide
theorem test_wellformed_accepts_key_with_mask : WellFormed (.fenc 1 true true true) = true := by decide
/-- 2.11: the word 0x406. -/
theorem test_decode_refuses_key_without_mask : decodeCommand 0x00000406 = .error .keyWithoutMask := by decide

/-! ## Decoding words written out bit by bit: 31:20 zero, SRCM, LEN7, TXT, KSUP, MSK, FIN, OPC, CODE (R59) -/

theorem test_decode_henc :
    decodeCommand 0b000000000000_0_0000101_0_0_0_1_0001_0001 = .ok (.henc true 1 false 5) := by decide
theorem test_decode_henc_mask :
    decodeCommand 0b000000000000_0_1111111_0_0_1_0_1010_0001 = .ok (.henc false 10 true 127) := by decide
theorem test_decode_hdec : decodeCommand 0b000000000000_0_0000000_0_0_0_0_0000_0010 = .ok .hdec := by decide
theorem test_decode_lenc : decodeCommand 0b000000000000_0_0000000_0_0_0_0_0000_0011 = .ok .lenc := by decide
theorem test_decode_ldecb : decodeCommand 0b000000000000_0_1111110_0_0_0_0_0000_0100 = .ok (.ldecb 126) := by decide
theorem test_decode_ldecs : decodeCommand 0b000000000000_1_1111110_0_0_0_0_0000_0100 = .ok (.ldecs 126) := by decide
theorem test_decode_mask : decodeCommand 0b000000000000_0_0000000_0_0_0_0_0000_0101 = .ok .mask := by decide
theorem test_decode_fenc :
    decodeCommand 0b000000000000_0_0000000_0_1_1_0_1000_0110 = .ok (.fenc 8 false true true) := by decide
theorem test_decode_fdecb : decodeCommand 0b000000000000_0_0000000_1_0_0_0_0000_0111 = .ok (.fdecb true) := by decide
theorem test_decode_fdecs : decodeCommand 0b000000000000_1_0000000_1_0_0_0_0000_0111 = .ok (.fdecs true) := by decide
theorem test_decode_utf8v : decodeCommand 0b000000000000_0_0000000_0_0_0_0_0000_1000 = .ok .utf8v := by decide
theorem test_decode_accept : decodeCommand 0b000000000000_0_0000000_0_0_0_0_0000_1001 = .ok .accept := by decide

/-- 2.11: the reserved codes 0, 0xA and 0xF. -/
theorem test_decode_reserved_codes :
    [0x00000000, 0x0000000A, 0x0000000F].map decodeCommand =
      [.error .reservedCode, .error .reservedCode, .error .reservedCode] := by decide
/-- A reserved bit, an unused field and a stray SRCM (R62). -/
theorem test_decode_unused_bits :
    [0x00100002, 0x00001003, 0x00080008].map decodeCommand =
      [.error .unusedBitSet, .error .unusedBitSet, .error .unusedBitSet] := by decide

/-- Base headers: FIN, RSV, OPCODE, MASK, LEN7 (R52), one row of each half and each class. -/
theorem test_decode_headers_low :
    [0b0_000_0000_0_0000000, 0b1_000_0001_1_0000101, 0b0_101_0010_0_1111110, 0b1_111_0011_1_1111111].map decodeHeader =
      [.wsCont false 0 false 0, .wsText true 0 true 5, .wsBinary false 5 false 126, .wsRsv3 true 7 true 127] := by decide
theorem test_decode_headers_rsv :
    [0b1_000_0100_0_0000001, 0b0_000_0101_0_0000010, 0b0_000_0110_1_0000000, 0b0_100_0111_0_0000000].map decodeHeader =
      [.wsRsv4 true 0 false 1, .wsRsv5 false 0 false 2, .wsRsv6 false 0 true 0, .wsRsv7 false 4 false 0] := by decide
theorem test_decode_headers_control :
    [0b1_000_1000_0_0000010, 0b1_000_1001_1_0000000, 0b1_010_1010_0_0000000, 0b0_000_1011_0_1111111].map decodeHeader =
      [.wsClose true 0 false 2, .wsPing true 0 true 0, .wsPong true 2 false 0, .wsRsv11 false 0 false 127] := by decide
theorem test_decode_headers_high :
    [0b0_000_1100_0_0000000, 0b1_001_1101_0_0000000, 0b0_000_1110_1_0000011, 0b1_000_1111_0_0000000].map decodeHeader =
      [.wsRsv12 false 0 false 0, .wsRsv13 true 1 false 0, .wsRsv14 false 0 true 3, .wsRsv15 true 0 false 0] := by decide

/-- The rows of the opcode table at their own match words. -/
theorem test_table_words :
    [decodeTableWord 32 0x00080004, decodeTableWord 32 0x0000000C, decodeTableWord 16 0x0900, decodeTableWord 16 0x10900] =
      [some (.ldecs 0), none, some (.wsPing false 0 false 0), none] := by decide

/-! ## A word of the table runs as the first instruction after reset -/

theorem test_first_step_commands :
    ([0x1, 0x2, 0x3, 0x4, 0x80004, 0x5, 0x6, 0x7, 0x80007, 0x8].map fun w =>
      goesOn (step (State.reset.withFetchWord 32 w))).all id = true := by decide
theorem test_first_step_accept : goesOn (step (State.reset.withFetchWord 32 0x9)) = true := by decide +kernel
theorem test_first_step_headers :
    ((List.range 16).map fun o => goesOn (step (State.reset.withFetchWord 16 (o * 256)))).all id = true := by decide
/-- A close header with two payload bytes to come goes on to F_PAY, holding (2.8). -/
theorem test_first_step_close : streamOf (step (State.reset.withFetchWord 16 0x8802)) = some (.fPay, true, []) := by decide

/-! ## The commands -/

/-- 2.1. -/
theorem test_henc : results (exec (.henc true 2 true 127) State.reset) =
    some { ResRegs.cleared with data := [0x82, 0xFF] } := by decide
/-- 2.2. -/
theorem test_hdec : results (exec .hdec (issuedWith { OpRegs.cleared with hdr := 0x427E })) =
    some { ResRegs.cleared with fin := false, rsv := 4, opc := 2, mask := false, len7 := 126 } := by decide
/-- 2.3, 2^32. -/
theorem test_lenc : results (exec .lenc (issuedWith { OpRegs.cleared with len := 0x100000000 })) =
    some { ResRegs.cleared with len7 := 127, data := [0, 0, 0, 1, 0, 0, 0, 0] } := by decide
/-- 2.3, 2^63. -/
theorem test_lenc_error : errcodeOf (exec .lenc (issuedWith { OpRegs.cleared with len := 0x8000000000000000 })) =
    some 2 := by decide
/-- 2.4. -/
theorem test_ldecb : results (exec (.ldecb 126) (issuedWith { OpRegs.cleared with buf := [0x01, 0x00] })) =
    some { ResRegs.cleared with len := 256, consumed := 2 } := by decide
/-- 2.4, the lowest 64-bit form is 65536. -/
theorem test_ldecb_nonminimal :
    errcodeOf (exec (.ldecb 127) (issuedWith { OpRegs.cleared with buf := [0, 0, 0, 0, 0, 0, 0xFF, 0xFF] })) =
      some 2 := by decide
/-- 2.4: the length is read and the byte after it stays. -/
theorem test_ldecs : (match exec (.ldecs 126) (inFlight 0x000FE004 .fExt .powerOn [0x01, 0x00, 0xAA]) with
      | .next t => (t.res.len, t.res.consumed, t.strm) | .fault _ => (0, 0, []) | .refused _ => (0, 0, [])) =
    (256, 2, [0xAA]) := by decide
/-- 2.4: one byte of two, so it holds. -/
theorem test_ldecs_holds : streamOf (exec (.ldecs 126) (inFlight 0x000FE004 .fExt .powerOn [0x01])) =
    some (.fExt, true, [0x01]) := by decide
/-- 2.5, the key wraps at byte 4. -/
theorem test_mask :
    results (exec .mask (issuedWith { OpRegs.cleared with data := [0, 0, 0, 0, 0, 0], key := [0xDE, 0xAD, 0xBE, 0xEF] })) =
      some { ResRegs.cleared with data := [0xDE, 0xAD, 0xBE, 0xEF, 0xDE, 0xAD] } := by decide
/-- 2.5, checked for an empty payload too. -/
theorem test_mask_key_length : errcodeOf (exec .mask (issuedWith .cleared)) = some 3 := by decide
/-- 2.6, masked "Hello". -/
theorem test_fenc :
    results (exec (.fenc 1 true true true)
        (issuedWith { OpRegs.cleared with data := [0x48, 0x65, 0x6C, 0x6C, 0x6F], key := [0x37, 0xFA, 0x21, 0x3D] })) =
      some { ResRegs.cleared with data := [0x81, 0x85, 0x37, 0xFA, 0x21, 0x3D, 0x7F, 0x9F, 0x4D, 0x51, 0x58] } := by decide
/-- 2.6, the draw [0 0 0 0]. -/
theorem test_fenc_draw :
    results (exec (.fenc 1 true true false)
        { issuedWith { OpRegs.cleared with data := [0x48, 0x65, 0x6C, 0x6C, 0x6F] } with keyDraws := [⟨0, 0, 0, 0⟩] }) =
      some { ResRegs.cleared with data := [0x81, 0x85, 0, 0, 0, 0, 0x48, 0x65, 0x6C, 0x6C, 0x6F] } := by decide
/-- 2.7, the masked close frame: unmask, then split. -/
theorem test_fdecb_close :
    results (exec (.fdecb false) (issuedWith { OpRegs.cleared with buf := [0x88, 0x82, 1, 2, 3, 4, 0x02, 0xEB] })) =
      some { ResRegs.cleared with opc := 8, fin := true, close := 1001, closeV := true, len := 2, consumed := 8 } := by
  decide
/-- 2.7, the text check. -/
theorem test_fdecb_text :
    errcodeOf (exec (.fdecb true) (issuedWith { OpRegs.cleared with buf := [0x81, 0x02, 0xC0, 0xAF] })) = some 4 := by
  decide
/-- 2.8: at issue with an empty stream it holds in F_HDR. -/
theorem test_fdecs_issue : streamOf (step (about (asmFdecs false))) = some (.fHdr, true, []) := by decide
/-- P2, step 6: F_PAY unmasks "Hel" and leaves what follows. -/
theorem test_fdecs_payload :
    (match exec (.fdecs true) (inFlight 0x00080807 .fPay
          { WorkRegs.powerOn with opc := 1, mask := true, plen := 3, key := ⟨0x37, 0xFA, 0x21, 0x3D⟩, cnt := 6 }
          [0x7F, 0x9F, 0x4D, 0x80]) with
      | .next t => (t.res.data, t.res.consumed, t.strm) | .fault _ => ([], 0, []) | .refused _ => ([], 0, [])) =
    ([0x48, 0x65, 0x6C], 9, [0x80]) := by decide
/-- 2.9. -/
theorem test_utf8 :
    [[], [0xE2, 0x82, 0xAC], [0xF0, 0x9F, 0x98, 0x80], [0xC2, 0x80], [0x7F]].map utf8Valid =
      [true, true, true, true, true] := by decide
theorem test_utf8_invalid :
    [[0xC0, 0xAF], [0xE0, 0x80, 0x80], [0xE2, 0x82], [0xED, 0xA0, 0x80], [0xF4, 0x90, 0x80, 0x80],
        [0xF5, 0x80, 0x80, 0x80], [0x80]].map utf8Valid =
      [false, false, false, false, false, false, false] := by decide
/-- 2.10, the empty key: "Kfh9QIsMVZcl6xEPYxPHzW8SZ8w=". -/
theorem test_accept : results (exec .accept (issuedWith .cleared)) =
    some { ResRegs.cleared with data :=
      [0x4B, 0x66, 0x68, 0x39, 0x51, 0x49, 0x73, 0x4D, 0x56, 0x5A, 0x63, 0x6C, 0x36, 0x78] ++
        [0x45, 0x50, 0x59, 0x78, 0x50, 0x48, 0x7A, 0x57, 0x38, 0x53, 0x5A, 0x38, 0x77, 0x3D] } := by
  decide +kernel
/-- 2.10, SHA1("abc"). -/
theorem test_sha1 : sha1 [0x61, 0x62, 0x63] =
    [0xA9, 0x99, 0x3E, 0x36, 0x47, 0x06, 0x81, 0x6A, 0xBA, 0x3E] ++
      [0x25, 0x71, 0x78, 0x50, 0xC2, 0x6C, 0x9C, 0xD0, 0xD8, 0x9D] := by
  decide +kernel
/-- 2.10, base64 of 0x01 .. 0x10 ends in two `=`. -/
theorem test_base64 : base64 [0x0D, 0x0E, 0x0F, 0x10] = [0x44, 0x51, 0x34, 0x50, 0x45, 0x41, 0x3D, 0x3D] := by decide

/-! ## The base headers -/

/-- P2, step 3: [0x01 0x83] of a masked fragment goes on to F_KEY and holds. -/
theorem test_wsText : streamOf (exec (.wsText false 0 true 3) (inFlight 0x00080807 .fHdr .powerOn [0x37])) =
    some (.fKey, true, [0x37]) := by decide
/-- 2.7: [0x88 0x00] completes with nothing split. -/
theorem test_wsClose :
    results (exec (.wsClose true 0 false 0) (inFlight 0x00080007 .fHdr { WorkRegs.powerOn with cnt := 2 } [])) =
      some { ResRegs.cleared with opc := 8, fin := true, consumed := 2 } := by decide
/-- 2.8: the 16-bit sentinel goes on to F_EXT. -/
theorem test_wsBinary : streamOf (exec (.wsBinary true 0 false 126) (inFlight 0x00080007 .fHdr .powerOn [0, 5])) =
    some (.fExt, false, [0, 5]) := by decide
/-- 2.7: a reserved opcode is returned as received. -/
theorem test_wsRsv3 :
    results (exec (.wsRsv3 true 0 false 0) (inFlight 0x00080007 .fHdr { WorkRegs.powerOn with cnt := 2 } [])) =
      some { ResRegs.cleared with opc := 3, fin := true, consumed := 2 } := by decide

/-! ## Steps of the other agents -/

/-- P5, step 2: reset during a stream hold leaves STRM and clears the rest. -/
theorem test_reset_input :
    streamOf (step { inFlight 0x00080007 .fPay .powerOn [0x48] with inputs := [.reset] }) = some (.idle, false, [0x48]) := by
  decide
/-- P4, step 4: an illegal word. -/
theorem test_illegal_word : errcodeOf (step (about ⟨0x0000000C, .cleared⟩)) = some 6 := by decide

/-! ## Witnesses: for each statement with hypotheses, states and operands that meet all of them, clause by clause, at boundary
values -/

def key0 : MaskKey := ⟨0x37, 0xFA, 0x21, 0x3D⟩

/-- FDECS in flight and LDECS in flight, with nothing scheduled. -/
def decoding (ph : Phase) (w : WorkRegs) (strm : Bytes) : State := inFlight 0x00080007 ph w strm
def resolving (strm : Bytes) : State := inFlight 0x000FE004 .fExt .powerOn strm

theorem witness_DecodeEncodeAgree : ∃ i : Instr, WellFormed i = true := ⟨.fenc 15 true true true, by decide⟩

theorem witness_DecodedWordIsItsEncoding : ∃ (c : Code) (i : Instr), decode c = .ok i :=
  ⟨.command 0x000FF004, .ldecs 127, by decide⟩

theorem witness_IllegalCommandWords_issue : ∃ (s : State) (p : PortCmd) (rest : List Input) (e : Reject),
    s.status.busy = false ∧ s.inputs = .issue p :: rest ∧ p.ops.fits s.maxPayload.val = true ∧
      decodeCommand p.cw = .error e :=
  ⟨about ⟨0x00000406, .cleared⟩, ⟨0x00000406, .cleared⟩, [], .keyWithoutMask, by decide⟩

theorem witness_IssueRunsTheCommand : ∃ (s : State) (p : PortCmd) (rest : List Input) (i : Instr),
    s.status.busy = false ∧ s.inputs = .issue p :: rest ∧ p.ops.fits s.maxPayload.val = true ∧
      decodeCommand p.cw = .ok i :=
  ⟨about (asmLdecs 127), asmLdecs 127, [], .ldecs 127, by decide⟩

theorem witness_EngineRuns_header : ∃ (s : State) (rest : List Input) (txt : Bool) (a b : Byte) (tl : Bytes),
    s.status.busy = true ∧ s.inputs = .engine :: rest ∧ decodeCommand s.cmd = .ok (.fdecs txt) ∧ s.phase = .fHdr ∧
      s.strm = a :: b :: tl :=
  ⟨{ decoding .fHdr .powerOn [0x81, 0x05] with inputs := [.engine] }, [], false, 0x81, 0x05, [], by decide⟩

theorem witness_EngineRuns_phase : ∃ (s : State) (rest : List Input) (txt : Bool),
    s.status.busy = true ∧ s.inputs = .engine :: rest ∧ decodeCommand s.cmd = .ok (.fdecs txt) ∧
      s.phase ∈ [Phase.fExt, .fKey, .fPay] :=
  ⟨{ decoding .fPay .powerOn [] with inputs := [.engine] }, [], false, by decide⟩

theorem witness_EngineRuns_short_header : ∃ (s : State) (rest : List Input) (txt : Bool),
    s.status.busy = true ∧ s.inputs = .engine :: rest ∧ decodeCommand s.cmd = .ok (.fdecs txt) ∧ s.phase = .fHdr ∧
      s.strm.length < 2 :=
  ⟨{ decoding .fHdr .powerOn [0x81] with inputs := [.engine] }, [], false, by decide⟩

theorem witness_EngineRuns_length : ∃ (s : State) (rest : List Input) (len7 : BitVec 7),
    s.status.busy = true ∧ s.inputs = .engine :: rest ∧ decodeCommand s.cmd = .ok (.ldecs len7) ∧ s.phase = .fExt :=
  ⟨{ resolving [] with inputs := [.engine] }, [], 126, by decide⟩

theorem witness_BusyIssueWaits : ∃ (s t : State) (p : PortCmd) (rest : List Input),
    s.status.busy = true ∧ s.inputs = .issue p :: rest ∧ step s = .next t :=
  ⟨{ decoding .fHdr .powerOn [0x81, 0x05] with inputs := [.issue (asmFdecs true)] }, _, asmFdecs true, [],
    by decide, by decide, rfl⟩

theorem witness_HencPacksHeader_word : ∃ w : BitVec 32, w &&& 0xFFF80C0F = 0x00000001 := ⟨0x0007F3F1, by decide⟩

theorem witness_HdecReportsFields : ∃ (fin : Bool) (rsv : BitVec 3) (opc : BitVec 4) (msk : Bool) (len7 : BitVec 7) (s : State),
    s.ops.hdr = BitVec.ofBool fin ++ rsv ++ opc ++ BitVec.ofBool msk ++ len7 :=
  ⟨false, 7, 15, false, 127, issuedWith { OpRegs.cleared with hdr := 0x7F7F }, by decide⟩

theorem witness_HeaderLaws : ∃ h : BitVec 16, h.extractLsb' 12 3 = 0 := ⟨0x8FFF, by decide⟩

theorem witness_LencPicksTheForm_legal : ∃ s : State, s.ops.len.toNat < 2 ^ 63 :=
  ⟨issuedWith { OpRegs.cleared with len := 0x7FFFFFFFFFFFFFFF }, by decide⟩
theorem witness_LencPicksTheForm_error : ∃ s : State, 2 ^ 63 ≤ s.ops.len.toNat :=
  ⟨issuedWith { OpRegs.cleared with len := 0x8000000000000000 }, by decide⟩

theorem witness_LdecbResolvesLength : ∃ (s : State) (l : Nat) (rest : Bytes), l < 2 ^ 63 ∧ s.ops.buf = wireExt l ++ rest :=
  ⟨issuedWith { OpRegs.cleared with buf := [0xFF, 0xFF, 0xAA] }, 65535, [0xAA], by decide⟩
theorem witness_LdecbResolvesLength_short : ∃ s : State, s.ops.buf.length < 2 :=
  ⟨issuedWith { OpRegs.cleared with buf := [0x00] }, by decide⟩
theorem witness_LdecbResolvesLength_short8 : ∃ s : State, s.ops.buf.length < 8 :=
  ⟨issuedWith { OpRegs.cleared with buf := [0, 0, 0, 0, 0, 0, 0] }, by decide⟩

theorem witness_LdecsResolvesLength : ∃ (s : State) (l : Nat) (rest : Bytes),
    s.phase = .fExt ∧ s.work.cnt = 0 ∧ l < 2 ^ 63 ∧ s.strm = wireExt l ++ rest :=
  ⟨resolving [0x00, 0x7E], 126, [], by decide⟩
theorem witness_LdecsResolvesLength_hold : ∃ (s : State) (len7 : BitVec 7),
    s.phase = .fExt ∧ s.strm.length < extBytes len7 := ⟨resolving [0x01], 126, by decide⟩
theorem witness_LdecsResolvesLength_issue : ∃ s : State, s.phase = .exec := ⟨issuedWith .cleared, by decide⟩

theorem witness_LengthCodecInverse : ∃ l, 126 ≤ l ∧ l < 2 ^ 63 := ⟨2 ^ 63 - 1, by decide⟩
theorem witness_LengthCodecInverse_back : ∃ l7 ext v, ext.length = extBytes l7 ∧ resolveLen l7 ext = some v :=
  ⟨127, [0, 0, 0, 0, 0, 1, 0, 0], 65536, by decide⟩

theorem witness_IllegalLengthsRejected_exists : ∃ l, 65536 ≤ l ∧ l < 2 ^ 63 := ⟨2 ^ 63 - 1, by decide⟩
theorem witness_IllegalLengthsRejected_unique : ∃ l7 ext l7' ext' v, ext.length = extBytes l7 ∧ ext'.length = extBytes l7' ∧
    resolveLen l7 ext = some v ∧ resolveLen l7' ext' = some v :=
  ⟨126, [0x00, 0x7E], 126, [0x00, 0x7E], 126, by decide⟩
theorem illegalExt_125 : IllegalExt 126 [0x00, 0x7D] := .inl ⟨rfl, 125, by decide, by decide⟩
theorem illegalExt_bit63 : IllegalExt 127 [0x80, 0, 0, 0, 0, 0, 0, 0] :=
  .inr ⟨rfl, 2 ^ 63, by decide, by decide, by decide⟩
theorem illegalExt_65535 : IllegalExt 127 [0, 0, 0, 0, 0, 0, 0xFF, 0xFF] := .inr ⟨rfl, 65535, by decide, by decide, by decide⟩
theorem witness_IllegalLengthsRejected_ldecb : ∃ len7 ext rest, ∃ s : State, IllegalExt len7 ext ∧ s.ops.buf = ext ++ rest :=
  ⟨126, [0x00, 0x7D], [0xAA], issuedWith { OpRegs.cleared with buf := [0x00, 0x7D, 0xAA] }, illegalExt_125, by decide⟩
theorem witness_IllegalLengthsRejected_fdecb : ∃ len7 ext rest, ∃ (s : State) (fin : Bool) (rsv : BitVec 3)
    (opc : BitVec 4) (msk : Bool), IllegalExt len7 ext ∧ s.ops.buf = wireHeader fin rsv opc msk len7 ++ ext ++ rest :=
  ⟨127, [0x80, 0, 0, 0, 0, 0, 0, 0], [], issuedWith { OpRegs.cleared with buf := [0x82, 0x7F, 0x80, 0, 0, 0, 0, 0, 0, 0] },
    true, 0, 2, false, illegalExt_bit63, by decide⟩
theorem witness_IllegalLengthsRejected_ldecs : ∃ len7 ext rest, ∃ s : State, IllegalExt len7 ext ∧ s.phase = .fExt ∧
    s.strm = ext ++ rest :=
  ⟨126, [0x00, 0x7D], [0xAA], resolving [0x00, 0x7D, 0xAA], illegalExt_125, by decide⟩
theorem witness_IllegalLengthsRejected_fdecs : ∃ len7 ext rest, ∃ s : State, IllegalExt len7 ext ∧ s.phase = .fExt ∧
    s.work.len7 = len7 ∧ s.strm = ext ++ rest :=
  ⟨127, [0, 0, 0, 0, 0, 0, 0xFF, 0xFF], [],
    decoding .fExt { WorkRegs.powerOn with len7 := 127 } [0, 0, 0, 0, 0, 0, 0xFF, 0xFF], illegalExt_65535, by decide⟩

theorem witness_MaskXorsCyclically : ∃ (s : State) (j : Nat), s.ops.key.length = 4 ∧ j < s.ops.data.length :=
  ⟨issuedWith { OpRegs.cleared with data := [1, 2, 3, 4, 5], key := [1, 2, 3, 4] }, 4, by decide⟩
theorem witness_MaskXorsCyclically_error : ∃ s : State, s.ops.key.length ≠ 4 :=
  ⟨issuedWith { OpRegs.cleared with key := [1, 2, 3] }, by decide⟩
theorem witness_MaskLaws : ∃ k : Bytes, k.length = 4 := ⟨[0x37, 0xFA, 0x21, 0x3D], by decide⟩

theorem witness_FencBuildsTheWireFrame_word : ∃ w : BitVec 32, w &&& 0xFFFFF80F = 0x00000006 ∧ w.getLsbD 10 = true ∧
    w.getLsbD 9 = false := ⟨0x00000406, by decide⟩
theorem witness_FencBuildsTheWireFrame : ∃ (s : State) (k : MaskKey),
    s.ops.data.length ≤ s.maxPayload.val ∧ s.ops.key = [k.k0, k.k1, k.k2, k.k3] :=
  ⟨{ smallMachine with ops := { OpRegs.cleared with data := [1, 2, 3, 4, 5, 6, 7, 8], key := key0.toBytes } }, key0, by decide⟩
theorem witness_FencBuildsTheWireFrame_error : ∃ s : State,
    s.ops.data.length ≤ s.maxPayload.val ∧ s.ops.key.length ≠ 4 :=
  ⟨{ smallMachine with ops := { OpRegs.cleared with key := [1] } }, by decide⟩
theorem witness_FencTakesOneDraw_queued : ∃ (s : State) (k : MaskKey) (draws : List MaskKey),
    s.ops.data.length ≤ s.maxPayload.val ∧ s.keyDraws = k :: draws :=
  ⟨{ issuedWith .cleared with keyDraws := [key0] }, key0, [], by decide⟩
theorem witness_FencTakesOneDraw_free : ∃ s : State, s.ops.data.length ≤ s.maxPayload.val ∧ s.keyDraws = [] :=
  ⟨issuedWith .cleared, by decide⟩
theorem witness_FencEmptyPayload : ∃ (s : State) (a b c d : Byte), s.ops.data = [] ∧ s.ops.key = [a, b, c, d] :=
  ⟨issuedWith { OpRegs.cleared with key := [1, 2, 3, 4] }, 1, 2, 3, 4, by decide⟩
theorem witness_FencEmptyPayload_error : ∃ s : State, s.ops.data = [] ∧ s.ops.key.length ≠ 4 :=
  ⟨issuedWith { OpRegs.cleared with key := [1] }, by decide⟩

theorem witness_FdecbDecodesWireFrames : ∃ (fin : Bool) (rsv : BitVec 3) (opc : BitVec 4) (key : Option MaskKey)
    (p rest : Bytes) (s : State), p.length ≤ s.maxPayload.val ∧ s.ops.buf = wireFrame fin rsv opc key p ++ rest :=
  ⟨true, 0, 8, some ⟨1, 2, 3, 4⟩, [0x03, 0xE9], [0xAA],
    issuedWith { OpRegs.cleared with buf := [0x88, 0x82, 1, 2, 3, 4, 0x02, 0xEB, 0xAA] }, by decide⟩
theorem witness_FdecbTruncatedFrames : ∃ (fin : Bool) (rsv : BitVec 3) (opc : BitVec 4) (key : Option MaskKey)
    (p : Bytes) (n : Nat) (s : State), p.length ≤ s.maxPayload.val ∧ n < (wireFrame fin rsv opc key p).length ∧
      s.ops.buf = (wireFrame fin rsv opc key p).take n :=
  ⟨true, 0, 8, some ⟨1, 2, 3, 4⟩, [0x03, 0xE9], 7,
    issuedWith { OpRegs.cleared with buf := [0x88, 0x82, 1, 2, 3, 4, 0x02] }, by decide⟩

theorem witness_OverCapacityRefused_buffer : ∃ (l : Nat) (rest : Bytes) (s : State) (fin : Bool) (rsv : BitVec 3)
    (opc : BitVec 4) (msk : Bool), s.maxPayload.val < l ∧ l < 2 ^ 63 ∧
      s.ops.buf = wireHeader fin rsv opc msk (wireLen7 l) ++ wireExt l ++ rest :=
  ⟨9, [], { smallMachine with ops := { OpRegs.cleared with buf := [0x82, 0x09] } }, true, 0, 2, false, by decide⟩
theorem witness_OverCapacityRefused_stream : ∃ (l : Nat) (rest : Bytes) (s : State), s.maxPayload.val < l ∧ l < 2 ^ 63 ∧
    s.phase = .fExt ∧ s.work.len7 = wireLen7 l ∧ s.strm = wireExt l ++ rest :=
  ⟨126, [], { smallMachine with phase := .fExt, work := { WorkRegs.powerOn with len7 := 126 }, strm := [0x00, 0x7E] },
    by decide⟩
theorem witness_OverCapacityRefused_header : ∃ (l : Nat) (s : State), s.maxPayload.val < l ∧ l < 2 ^ 63 ∧ l ≤ 125 :=
  ⟨9, smallMachine, by decide⟩

theorem witness_HeaderRowsRun : ∃ row ∈ headerRows, ∃ (len7 : BitVec 7) (s : State), row.1 = 15 ∧
    row.2 true 0 false len7 = .wsRsv15 true 0 false len7 ∧ len7.toNat ≤ 125 ∧ len7.toNat ≤ s.maxPayload.val ∧ len7 ≠ 0 :=
  ⟨(15, .wsRsv15), by simp [headerRows], 8, smallMachine, rfl, rfl, by decide, by decide, by decide⟩
theorem witness_HeaderRowsRun_masked : ∃ row ∈ headerRows, ∃ (len7 : BitVec 7) (s : State), row.1 = 8 ∧
    row.2 true 0 true len7 = .wsClose true 0 true len7 ∧ len7.toNat ≤ 125 ∧ len7.toNat ≤ s.maxPayload.val :=
  ⟨(8, .wsClose), by simp [headerRows], 125, State.reset, rfl, rfl, by decide, by decide⟩

theorem witness_FdecsPhases_ext : ∃ (s : State) (l : Nat) (rest : Bytes), s.phase = .fExt ∧ 126 ≤ l ∧
    l ≤ s.maxPayload.val ∧ s.work.len7 = wireLen7 l ∧ s.strm = wireExt l ++ rest :=
  ⟨decoding .fExt { WorkRegs.powerOn with len7 := 127, cnt := 2 } [0, 0, 0, 0, 0, 1, 0, 0], 65536, [], by decide⟩
theorem witness_FdecsPhases_key : ∃ (s : State) (k : MaskKey) (rest : Bytes), s.phase = .fKey ∧ s.work.plen ≠ 0 ∧
    s.strm = [k.k0, k.k1, k.k2, k.k3] ++ rest :=
  ⟨decoding .fKey { WorkRegs.powerOn with plen := 1, mask := true } [0x37, 0xFA, 0x21, 0x3D], key0, [], by decide⟩
theorem witness_FdecsPhases_key_empty : ∃ (s : State) (k : MaskKey) (rest : Bytes), s.phase = .fKey ∧
    s.work.plen = 0 ∧ s.strm = [k.k0, k.k1, k.k2, k.k3] ++ rest :=
  ⟨decoding .fKey { WorkRegs.powerOn with mask := true } [0x37, 0xFA, 0x21, 0x3D], key0, [], by decide⟩
theorem witness_FdecsPhases_pay : ∃ (s : State) (raw rest : Bytes), s.phase = .fPay ∧ raw ≠ [] ∧
    raw.length = s.work.plen.toNat ∧ s.strm = raw ++ rest :=
  ⟨decoding .fPay { WorkRegs.powerOn with plen := 1 } [0x41, 0x42], [0x41], [0x42], by decide⟩

theorem witness_StreamHoldsForever : ∃ (s : State) (txt : Bool), s.status.busy = true ∧ s.inputs = [] ∧
    decodeCommand s.cmd = .ok (.fdecs txt) ∧ s.phase ∈ [Phase.fHdr, .fExt, .fKey, .fPay] ∧
      s.strm.length < phaseNeed s.phase s.work := ⟨decoding .fKey .powerOn [0x37, 0xFA, 0x21], false, by decide⟩
theorem witness_StreamHoldsForever_length : ∃ (s : State) (len7 : BitVec 7), s.status.busy = true ∧ s.inputs = [] ∧
    decodeCommand s.cmd = .ok (.ldecs len7) ∧ s.phase = .fExt ∧ s.strm.length < extBytes len7 :=
  ⟨resolving [0x01], 126, by decide⟩
theorem witness_ArrivalGranularityInvisible : ∃ (txt : Bool) (a : Bytes) (s : State), s.status.busy = true ∧
    decodeCommand s.cmd = .ok (.fdecs txt) ∧ s.phase ∈ [Phase.fHdr, .fExt, .fKey, .fPay] ∧
      (s.strm ++ a).length < phaseNeed s.phase s.work := ⟨false, [0x81], decoding .fHdr .powerOn [], by decide⟩
theorem witness_ArrivalGranularityInvisible_length : ∃ (len7 : BitVec 7) (a : Bytes) (s : State), s.status.busy = true ∧
    decodeCommand s.cmd = .ok (.ldecs len7) ∧ s.phase = .fExt ∧ (s.strm ++ a).length < extBytes len7 :=
  ⟨126, [0x01], resolving [], by decide⟩

/-- Both round trips: the frame FENC builds, and a decoder of the same capacity that finds it. -/
theorem witness_RoundTrip : ∃ (opc : BitVec 4) (fin msk ksup : Bool) (s t : State),
    WellFormed (.fenc opc fin msk ksup) = true ∧ s.ops.data.length ≤ s.maxPayload.val ∧
      (ksup = true → s.ops.key.length = 4) ∧ exec (.fenc opc fin msk ksup) s = .next t ∧
      (∃ (rest : Bytes) (u : State), u.maxPayload = s.maxPayload ∧ u.ops.buf = t.res.data ++ rest) ∧
      (∃ (txt : Bool) (rest : Bytes) (p : PortCmd) (u : State), u.maxPayload = s.maxPayload ∧ u.status.busy = false ∧
        u.inputs = [.issue p] ∧ decodeCommand p.cw = .ok (.fdecs txt) ∧ p.ops.fits u.maxPayload.val = true ∧
        u.strm = t.res.data ++ rest) :=
  ⟨1, true, true, true, issuedWith { OpRegs.cleared with data := [0x48], key := [1, 2, 3, 4] }, _, by decide, by decide,
    by decide, rfl, ⟨[0xAA], issuedWith { OpRegs.cleared with buf := [0x81, 0x81, 1, 2, 3, 4, 0x49, 0xAA] }, by decide⟩,
    ⟨true, [0xAA], asmFdecs true, { about (asmFdecs true) with strm := [0x81, 0x81, 1, 2, 3, 4, 0x49, 0xAA] }, by decide⟩⟩

theorem witness_StreamAgreesWithBuffer : ∃ (txt : Bool) (bs : Bytes) (s b : State), s.status.busy = false ∧ s.strm = bs ∧
    step { s with inputs := [.issue (asmFdecb txt bs)] } = .next b ∧ b.errcode ≠ 1 ∧ b.status.err = false :=
  ⟨false, [0x82, 0x01, 0x41, 0xAA], { State.reset with strm := [0x82, 0x01, 0x41, 0xAA] }, _, by decide, by decide, rfl,
    by decide, by decide⟩

/-- A CLOSE waiting in an idle instance of capacity 8. -/
def closing (reason : Bytes) (msk : Bool) (key : Option Bytes) : State :=
  { smallMachine with inputs := [.issue (pseudoClose 1000 reason msk key)] }

/-- The hypotheses on the state, at the largest reason that fits, in each form. -/
theorem witness_CloseFrameDecodesBack : ∀ msk : Bool, ∀ key ∈ [none, some [1, 2, 3, 4], some [1, 2, 3]],
    (closing [1, 2, 3, 4, 5, 6] msk key).status.busy = false ∧
      (pseudoClose 1000 [1, 2, 3, 4, 5, 6] msk key).ops.fits (closing [1, 2, 3, 4, 5, 6] msk key).maxPayload.val = true ∧
      (closing [1, 2, 3, 4, 5, 6] msk key).inputs = [.issue (pseudoClose 1000 [1, 2, 3, 4, 5, 6] msk key)] := by decide
/-- The masked form at work, its key supplied: L1-3's code and reason. -/
theorem test_close_masked :
    results (step (closing [0x62, 0x79, 0x65] true (some [0, 0, 0, 0]))) =
      some { ResRegs.cleared with data := [0x88, 0x85, 0, 0, 0, 0, 0x03, 0xE8, 0x62, 0x79, 0x65] } := by decide

theorem witness_Utf8vChecksOperand : (∃ s : State, utf8Valid s.ops.data = true) ∧ ∃ s : State, utf8Valid s.ops.data = false :=
  ⟨⟨issuedWith { OpRegs.cleared with data := [0xF4, 0x8F, 0xBF, 0xBF] }, by decide⟩,
    issuedWith { OpRegs.cleared with data := [0xF4, 0x90, 0x80, 0x80] }, by decide⟩

theorem witness_AcceptComputesValue : ∃ s : State, 8 * (s.ops.data.length + 36) < 2 ^ 64 := ⟨issuedWith .cleared, by decide⟩
/-- The first length that cannot be padded: 2^61 - 36 key bytes. -/
theorem witness_AcceptComputesValue_refused : ∃ s : State, 2 ^ 64 ≤ 8 * (s.ops.data.length + 36) :=
  have key : ∀ n, 2 ^ 64 ≤ 8 * (n + 36) → ∃ s : State, 2 ^ 64 ≤ 8 * (s.ops.data.length + 36) := fun n h =>
    ⟨issuedWith { OpRegs.cleared with data := List.replicate n 0 }, by simpa [issuedWith] using h⟩
  key (2 ^ 61 - 36) (by norm_num)
theorem witness_AcceptVectorAndShape : ∃ s : State, s.ops.data =
    [0x64, 0x47, 0x68, 0x6C, 0x49, 0x48, 0x4E, 0x68, 0x62, 0x58, 0x42, 0x73] ++
      [0x5A, 0x53, 0x42, 0x75, 0x62, 0x32, 0x35, 0x6A, 0x5A, 0x51, 0x3D, 0x3D] :=
  ⟨issuedWith { OpRegs.cleared with data :=
    [0x64, 0x47, 0x68, 0x6C, 0x49, 0x48, 0x4E, 0x68, 0x62, 0x58, 0x42, 0x73] ++
      [0x5A, 0x53, 0x42, 0x75, 0x62, 0x32, 0x35, 0x6A, 0x5A, 0x51, 0x3D, 0x3D] }, rfl⟩
theorem witness_AcceptVectorAndShape_same_key : ∃ s t s' t' : State, s.ops.data = t.ops.data ∧ exec .accept s = .next s' ∧
    exec .accept t = .next t' :=
  ⟨issuedWith .cleared, { issuedWith .cleared with cmd := 9 }, _, _, by decide, rfl, rfl⟩
theorem witness_Sha1Padding : ∃ m : Bytes, 8 * m.length < 2 ^ 64 ∧ m.length = 60 := ⟨List.replicate 60 0, by decide⟩
theorem witness_Sha1Schedule : ∃ b : Bytes, b.length = 64 := ⟨List.replicate 64 0, by decide⟩

theorem witness_ResetInputClears : ∃ (s : State) (rest : List Input), s.inputs = .reset :: rest :=
  ⟨{ decoding .fPay .powerOn [0x48] with inputs := [.reset] }, [], by decide⟩

/-- A stream decode holding in F_PAY meets the invariant. -/
theorem inv_decoding : (decoding .fPay { WorkRegs.powerOn with plen := 1, cnt := 2 } []).Inv :=
  ⟨by decide, by decide, by decide, by decide, by decide, by decide, by decide⟩

theorem witness_StepKeepsInv : ∃ s t : State, s.Inv ∧ step s = .next t := ⟨_, _, inv_decoding, rfl⟩
theorem witness_InvStepsNeverFault : ∃ s : State, s.Inv ∧ s.status.busy = true := ⟨_, inv_decoding, by decide⟩
theorem witness_RefusalsAreNamed : ∃ (s : State) (r : Refusal), step s = .refused r ∧ r = .operandOverCapacity :=
  ⟨{ smallMachine with inputs := [.issue (asmMask [1, 2, 3, 4, 5, 6, 7, 8, 9] [])] }, _, rfl, rfl⟩
theorem witness_RefusalsAreNamed_payload : ∃ (s : State) (r : Refusal), step s = .refused r ∧ r = .payloadOverCapacity :=
  ⟨{ smallMachine with inputs := [.issue (asmFdecb false [0x82, 0x09])] }, _, rfl, rfl⟩
theorem witness_NoPartialResultsSeen_busy : ∃ s t : State, s.Inv ∧ step s = .next t ∧ t.status.busy = true :=
  ⟨_, _, inv_decoding, rfl, by decide⟩
theorem witness_NoPartialResultsSeen_error : ∃ s t : State, s.Inv ∧ step s = .next t ∧ t.status.err = true :=
  ⟨about (asmFdecb false [0x81]), _, ⟨by decide, by decide, by decide, by decide, by decide, by decide, by decide⟩, rfl,
    by decide⟩
theorem witness_StreamConsumedAtHeadOnly : ∃ s t : State, step s = .next t ∧ t.strm = s.strm.drop 1 ∧ t.strm ≠ s.strm :=
  ⟨decoding .fPay { WorkRegs.powerOn with plen := 1, cnt := 2 } [0x41, 0x42], _, rfl, by decide, by decide⟩
theorem witness_OperandsChangeOnlyAtIssue : ∃ s t : State, step s = .next t ∧ t.ops ≠ s.ops :=
  ⟨about (asmUtf8v [0x41]), _, rfl, by decide⟩
theorem witness_NonStreamFrame : ∃ (i : Instr) (s t : State), nonStream i = true ∧ exec i s = .next t ∧
    t.status.err = true ∧ s.status.err = false :=
  ⟨.fdecb true, issuedWith { OpRegs.cleared with buf := [0x81, 0x01, 0x80] }, _, by decide, rfl, by decide, by decide⟩
theorem witness_StreamFrame : ∃ (i : Instr) (s t : State), nonStream i = false ∧ exec i s = .next t ∧ t.strm ≠ s.strm :=
  ⟨.fdecs false, decoding .fPay { WorkRegs.powerOn with plen := 1, cnt := 2 } [0x41], _, by decide, rfl, by decide⟩
theorem witness_ErrorsByCommand : ∃ (i : Instr) (s t : State), s.ops.data.length ≤ s.maxPayload.val ∧ exec i s = .next t ∧
    t.errcode ≠ s.errcode := ⟨.mask, issuedWith .cleared, _, by decide, rfl, by decide⟩
theorem witness_WorkingRegistersInvisible : ∃ s t : State, s.status.busy = true ∧ s.settled = t.settled ∧ s ≠ t :=
  ⟨decoding .fKey { WorkRegs.powerOn with plen := 1, cnt := 2, mask := true } [1, 2, 3, 4],
    decoding .fKey { WorkRegs.powerOn with plen := 1, cnt := 2, mask := true, key := key0, pay := [9] } [1, 2, 3, 4], by decide⟩
theorem witness_WorkingRegistersInvisible_run : ∃ s t : State,
    s.status.busy = false ∧ s.forgetWork = t.forgetWork ∧ s ≠ t :=
  ⟨about (asmFdecs true), { about (asmFdecs true) with work := { WorkRegs.powerOn with cnt := 7 } }, by decide⟩
theorem witness_NonStreamCommandsEndInOneStep : ∃ (i : Instr) (s : State) (p : PortCmd) (rest : List Input),
    nonStream i = true ∧ s.status.busy = false ∧ s.inputs = .issue p :: rest ∧ p.ops.fits s.maxPayload.val = true ∧
      decodeCommand p.cw = .ok i :=
  ⟨.fdecb false, about (asmFdecb false []), asmFdecb false [], [], by decide⟩

theorem witness_ServerFindsTheKey : ∃ host key : Bytes, charLf ∉ host ∧ charLf ∉ key ∧
    ∀ b, key.head? = some b → isBlank b = false :=
  ⟨[0x61, 0x3A], [0x41], by decide, by decide, by simp [isBlank]⟩
theorem witness_HandshakeErrors : ∃ raw r, parseRequest raw = .ok r ∧ lookupHeader nameKey r.headers = none :=
  ⟨[0x47], _, rfl, rfl⟩

theorem witness_LenEncOfEveryLength : (0x7FFFFFFFFFFFFFFF : BitVec 64).toNat < 2 ^ 63 ∧
    2 ^ 63 ≤ (0x8000000000000000 : BitVec 64).toNat := by decide
theorem witness_ApplyMaskOfEveryKey : ∃ (p k k' : Bytes) (j : Nat), k.length ≠ 4 ∧ k'.length = 4 ∧ j < p.length :=
  ⟨[1, 2, 3, 4, 5], [1, 2, 3], [1, 2, 3, 4], 4, by decide⟩

/-- R107's bytes, for the accept value "A". -/
theorem test_server_response :
    serverResponse { ready := true, status := statusCompleted statusIssued, errcode := 0,
                     res := { ResRegs.cleared with data := [0x41] } } =
      some ([0x48, 0x54, 0x54, 0x50, 0x2F, 0x31, 0x2E, 0x31, 0x20, 0x31, 0x30, 0x31, 0x20, 0x53, 0x77, 0x69] ++
      [0x74, 0x63, 0x68, 0x69, 0x6E, 0x67, 0x20, 0x50, 0x72, 0x6F, 0x74, 0x6F, 0x63, 0x6F, 0x6C, 0x73] ++
      [0x0D, 0x0A, 0x55, 0x70, 0x67, 0x72, 0x61, 0x64, 0x65, 0x3A, 0x20, 0x77, 0x65, 0x62, 0x73, 0x6F] ++
      [0x63, 0x6B, 0x65, 0x74, 0x0D, 0x0A, 0x43, 0x6F, 0x6E, 0x6E, 0x65, 0x63, 0x74, 0x69, 0x6F, 0x6E] ++
      [0x3A, 0x20, 0x55, 0x70, 0x67, 0x72, 0x61, 0x64, 0x65, 0x0D, 0x0A, 0x53, 0x65, 0x63, 0x2D, 0x57] ++
      [0x65, 0x62, 0x53, 0x6F, 0x63, 0x6B, 0x65, 0x74, 0x2D, 0x41, 0x63, 0x63, 0x65, 0x70, 0x74, 0x3A] ++
      [0x20, 0x41, 0x0D, 0x0A, 0x0D, 0x0A]) := by decide
/-- A request with the key "A" gives the key. -/
theorem witness_ServerSendsTheAcceptValue : ∃ (raw key : Bytes) (r : ParsedRequest) (s : State), parseRequest raw = .ok r ∧
    lookupHeader nameKey r.headers = some key ∧ s.status.busy = false ∧ key.length ≤ s.maxPayload.val ∧
    8 * (key.length + 36) < 2 ^ 64 ∧ s.inputs = [.issue (asmAccept key)] :=
  ⟨buildRequest [0x61] [0x41], [0x41], _, about (asmAccept [0x41]), rfl, by decide, by decide, by decide, by decide, rfl⟩
theorem witness_ServerSendsTheAcceptValue_none : ∃ s : State, s.status.err = true :=
  ⟨{ State.reset with status := statusRaised }, by decide⟩

end Sys2Proof.Tests
end

section
/-! PROOFS. What a command can do in one step: the ends of the commands that read no stream byte, the moves of a stream
decode, and the frames of both. -/

namespace Sys2Proof.Machine

/-! ### The commands by kind -/

/-- The commands the command decoder gives: those that read no stream byte, LDECS and FDECS; never a base header. -/
def GivesCommand : Except Reject Instr → Prop
  | .ok i => nonStream i = true ∨ (∃ l, i = .ldecs l) ∨ ∃ x, i = .fdecs x
  | .error _ => True

theorem decodeCommand_givesCommand (w : BitVec 32) : GivesCommand (decodeCommand w) := by
  unfold decodeCommand
  repeat' refine iteInduction (fun _ => ?_) (fun _ => ?_)
  all_goals simp [GivesCommand, nonStream]

theorem decodeCommand_kind {w : BitVec 32} {i : Instr} (h : decodeCommand w = .ok i) :
    nonStream i = true ∨ (∃ l, i = .ldecs l) ∨ ∃ x, i = .fdecs x := by
  have hg := decodeCommand_givesCommand w
  rwa [h] at hg

/-- An instruction that reads stream bytes is LDECS, FDECS, or a base header, and a base header runs F_HDR. -/
theorem stream_kind {i : Instr} (h : nonStream i = false) :
    (∃ l, i = .ldecs l) ∨ (∃ x, i = .fdecs x) ∨
      (blankOwnResults i = blankFrameResults ∧
        ∃ f, ∀ s, exec i s = headerPhase streamNext (cmdTxt s.cmd) f s) := by
  cases i with
  | henc | hdec | lenc | ldecb | mask | fenc | fdecb | utf8v | accept => cases h
  | ldecs l => exact .inl ⟨l, rfl⟩
  | fdecs x => exact .inr (.inl ⟨x, rfl⟩)
  | _ => exact .inr (.inr ⟨rfl, ⟨_, _, _, _, _⟩, fun _ => rfl⟩)

/-- The header row that decodes a fetched header runs F_HDR on its fields (43_frame_codec.md R83). -/
theorem exec_decodeHeader (h : BitVec 16) (s : State) :
    exec (decodeHeader h) s = headerPhase streamNext (cmdTxt s.cmd) (unpackHdr h) s := by
  unfold decodeHeader
  generalize unpackHdr h = f
  obtain ⟨fin, rsv, ⟨⟨n, hn⟩⟩, msk, len7⟩ := f
  interval_cases n <;> rfl

/-! ### Commands that end in their step -/

/-- `s'` is `s` but for what a command may spend before it ends: the working registers in LDECB and FDECB, the SHA-1
registers in ACCEPT, and the draws in an FENC that draws its key. -/
def Spent (i : Instr) (s s' : State) : Prop :=
  ∃ w h ks n, s' = { s with work := w, sha := h, keyDraws := ks, drawCount := n } ∧
    (w = s.work ∨ (∃ l, i = .ldecb l) ∨ (∃ x, i = .fdecb x)) ∧
    (h = s.sha ∨ i = .accept) ∧
    ((ks = s.keyDraws ∧ n = s.drawCount) ∨ (∃ o f, i = .fenc o f true false))

theorem Spent.refl (i : Instr) (s : State) : Spent i s s :=
  ⟨_, _, _, _, rfl, .inl rfl, .inl rfl, .inl ⟨rfl, rfl⟩⟩

/-- How a command that reads no stream byte ends: the error exit, or completion with only its own results changed. -/
inductive CommandEnds (i : Instr) (s : State) : State → Prop
  | errors {c : BitVec 4} {s' : State} (hc : c ∈ ([1, 2, 3, 4] : List (BitVec 4))) (hs : Spent i s s') :
      CommandEnds i s (errored c s')
  | completes {r : ResRegs} {s' : State} (hr : blankOwnResults i r = blankOwnResults i s.res) (hs : Spent i s s') :
      CommandEnds i s (completed r s')

/-- The command ends in this step, or is one of the refusals of 60_exceptions.md R120. -/
def EndsAtOnce (i : Instr) (s : State) (o : Result) : Prop :=
  RefusedBySpec o ∨ ∃ t, o = .next t ∧ CommandEnds i s t

theorem endsAtOnce_raise {i : Instr} {s : State} {e : ErrKind} (hc : e.code ∈ ([1, 2, 3, 4] : List (BitVec 4))) :
    EndsAtOnce i s (raise e s) :=
  .inr ⟨_, rfl, .errors hc (.refl i s)⟩

theorem endsAtOnce_complete {i : Instr} {s s' : State} {r : ResRegs}
    (hr : blankOwnResults i r = blankOwnResults i s.res) (hs : Spent i s s') : EndsAtOnce i s (complete r s') :=
  .inr ⟨_, rfl, .completes hr hs⟩

theorem execLenc_ends (s : State) : EndsAtOnce .lenc s (execLenc s) := by
  unfold execLenc
  split
  · exact endsAtOnce_raise (by decide)
  · exact endsAtOnce_complete rfl (.refl _ s)

theorem execMask_ends (s : State) : EndsAtOnce .mask s (execMask s) := by
  unfold execMask
  split
  · exact endsAtOnce_raise (by decide)
  · exact endsAtOnce_complete rfl (.refl _ s)

theorem execUtf8v_ends (s : State) : EndsAtOnce .utf8v s (execUtf8v s) := by
  unfold execUtf8v
  split
  · exact endsAtOnce_complete rfl (.refl _ s)
  · exact endsAtOnce_raise (by decide)

theorem execAccept_ends (s : State) : EndsAtOnce .accept s (execAccept s) := by
  unfold execAccept
  dsimp only
  split
  · exact .inl (.inr rfl)
  · exact endsAtOnce_complete rfl ⟨s.work, _, s.keyDraws, s.drawCount, rfl, .inl rfl, .inr rfl, .inl ⟨rfl, rfl⟩⟩

/-- A draw spends nothing but draws. -/
theorem spent_draw4 (opc : BitVec 4) (fin : Bool) (s : State) : Spent (.fenc opc fin true false) s (draw4 s).2 := by
  obtain ⟨ks, n, h⟩ := draw4_frame s
  exact ⟨s.work, s.sha, ks, n, h, .inl rfl, .inl rfl, .inr ⟨opc, fin, rfl⟩⟩

theorem execFenc_ends (opc : BitVec 4) (fin msk ksup : Bool) (s : State) :
    EndsAtOnce (.fenc opc fin msk ksup) s (execFenc opc fin msk ksup s) := by
  unfold execFenc
  split
  · exact endsAtOnce_raise (by decide)
  · cases msk with
    | false => exact endsAtOnce_complete rfl (.refl _ s)
    | true =>
      cases ksup with
      | false => exact endsAtOnce_complete rfl (spent_draw4 opc fin s)
      | true =>
        simp only [if_true]
        split
        · exact endsAtOnce_raise (by decide)
        · exact endsAtOnce_complete rfl (.refl _ s)

theorem execLdecb_ends (l : BitVec 7) (s : State) : EndsAtOnce (.ldecb l) s (execLdecb l s) := by
  have spent (w : WorkRegs) : Spent (.ldecb l) s { s with work := w } :=
    ⟨w, _, _, _, rfl, .inr (.inl ⟨l, rfl⟩), .inl rfl, .inl ⟨rfl, rfl⟩⟩
  unfold execLdecb
  rcases onBuffer_cases (extBytes l) (clearCount s) (finishLength l) with ⟨-, e⟩ | ⟨-, e⟩ <;> rw [e]
  · exact .inr ⟨_, rfl, .errors (by decide) (spent _)⟩
  · unfold finishLength
    split
    · exact .inr ⟨_, rfl, .errors (by decide) (spent _)⟩
    · exact endsAtOnce_complete rfl (spent _)

/-! ### FDECB: the phases in buffer mode -/

/-- A frame decode in buffer mode ends in its step, or is refused over capacity (43_frame_codec.md R89). -/
def BufferEnds (s : State) (o : Result) : Prop :=
  o = .refused .payloadOverCapacity ∨ ∃ t, o = .next t ∧ DecodeEnds [1, 2, 4] s t

theorem BufferEnds.of_post {txt : Bool} {s : State} {o : Result}
    (h : ∃ t, o = .next t ∧ DecodeEnds (postCodes txt) s t) : BufferEnds s o := by
  obtain ⟨t, e, d⟩ := h
  exact .inr ⟨t, e, d.mono (by cases txt <;> decide)⟩

/-- A buffer-mode pull raises `TruncatedFrameError` or goes on; only working registers differ then. -/
theorem BufferEnds.onBuffer {n : Nat} {s : State} {k : Bytes → State → Result}
    (hk : ∀ bs w, BufferEnds s (k bs { s with work := w })) : BufferEnds s (onBuffer n s k) := by
  rcases onBuffer_cases n s k with ⟨-, e⟩ | ⟨-, e⟩ <;> rw [e]
  · exact .inr ⟨_, rfl, .inl ⟨1, by decide, s.work, rfl⟩⟩
  · exact hk _ _

theorem bufferPay_ends (txt : Bool) (s : State) : BufferEnds s (bufferPay txt s) :=
  .onBuffer fun bs w => .of_post (payPhase_ends txt bs { s with work := w })

theorem bufferKey_ends (txt : Bool) (s : State) : BufferEnds s (bufferKey txt s) := by
  refine .onBuffer fun bs w => ?_
  unfold keyPhase
  rcases afterKey_cases (fun _ => bufferPay txt) txt { s with work := { w with key := MaskKey.ofPulled bs } } with
    ⟨-, e⟩ | ⟨-, h⟩
  · rw [e]; exact bufferPay_ends txt _
  · exact .of_post h

theorem bufferAfterLength_ends (txt : Bool) (ph : Phase) (s : State) : BufferEnds s (bufferAfterLength txt ph s) := by
  cases ph with
  | fKey => exact bufferKey_ends txt s
  | _ => exact bufferPay_ends txt s

theorem afterLength_bufferEnds {next : Phase → State → Result} (hn : ∀ ph s, BufferEnds s (next ph s)) (txt : Bool)
    (v : BitVec 64) (s : State) : BufferEnds s (afterLength next txt v s) := by
  rcases afterLength_cases next txt v s with ⟨-, e⟩ | ⟨-, ⟨-, e⟩ | ⟨-, -, e⟩ | ⟨-, -, h⟩⟩
  · exact .inl e
  · rw [e]; exact hn .fKey { s with work := { s.work with plen := v } }
  · rw [e]; exact hn .fPay { s with work := { s.work with plen := v } }
  · exact .of_post h

theorem bufferExt_ends (txt : Bool) (s : State) : BufferEnds s (bufferExt txt s) := by
  refine .onBuffer fun bs w => ?_
  rcases extPhase_cases (bufferAfterLength txt) txt bs { s with work := w } with ⟨-, e⟩ | ⟨v, -, e⟩ <;> rw [e]
  · exact .inr ⟨_, rfl, .inl ⟨2, by decide, w, rfl⟩⟩
  · exact afterLength_bufferEnds (bufferAfterLength_ends txt) txt v { s with work := w }

theorem bufferNext_ends (txt : Bool) (ph : Phase) (s : State) : BufferEnds s (bufferNext txt ph s) := by
  unfold bufferNext
  split
  · exact bufferExt_ends txt s
  all_goals exact bufferAfterLength_ends txt _ s

theorem headerPhase_bufferEnds (txt : Bool) (f : HeaderFields) (s : State) :
    BufferEnds s (headerPhase (bufferNext txt) txt f s) := by
  rcases headerPhase_cases (bufferNext txt) txt f s with ⟨-, e⟩ | ⟨-, e⟩ <;> rw [e]
  · exact afterLength_bufferEnds (bufferNext_ends txt) txt _ (headerLatched f s)
  · exact bufferNext_ends txt .fExt (headerLatched f s)

theorem execFdecb_bufferEnds (txt : Bool) (s : State) : BufferEnds s (execFdecb txt s) :=
  BufferEnds.onBuffer (s := clearCount s) fun bs w =>
    headerPhase_bufferEnds txt _ (latchHeader (headerOfBytes bs) { s with work := w })

theorem execFdecb_ends (txt : Bool) (s : State) : EndsAtOnce (.fdecb txt) s (execFdecb txt s) := by
  have spent (w : WorkRegs) : Spent (.fdecb txt) s { s with work := w } :=
    ⟨w, _, _, _, rfl, .inr (.inr ⟨txt, rfl⟩), .inl rfl, .inl ⟨rfl, rfl⟩⟩
  rcases execFdecb_bufferEnds txt s with e | ⟨t, e, ⟨c, hc, w, rfl⟩ | ⟨r, w, hr, rfl⟩⟩ <;> rw [e]
  · exact .inl (.inl rfl)
  · have sub : ([1, 2, 4] : List (BitVec 4)) ⊆ [1, 2, 3, 4] := by decide
    exact .inr ⟨_, rfl, .errors (sub hc) (spent w)⟩
  · exact .inr ⟨_, rfl, .completes hr (spent w)⟩

/-- Every command that reads no stream byte ends in its step or is refused by the spec (R19). -/
theorem exec_endsAtOnce {i : Instr} (h : nonStream i = true) (s : State) : EndsAtOnce i s (exec i s) := by
  cases i with
  | henc => exact endsAtOnce_complete rfl (.refl _ s)
  | hdec => exact endsAtOnce_complete rfl (.refl _ s)
  | lenc => exact execLenc_ends s
  | ldecb l => exact execLdecb_ends l s
  | mask => exact execMask_ends s
  | fenc opc fin msk ksup => exact execFenc_ends opc fin msk ksup s
  | fdecb txt => exact execFdecb_ends txt s
  | utf8v => exact execUtf8v_ends s
  | accept => exact execAccept_ends s
  | _ => cases h

/-! ### LDECS -/

/-- At issue LDECS enters F_EXT with W_CNT = 0 (41_length_codec.md R74). -/
theorem execLdecs_enters {s : State} (h : s.phase ≠ .fExt) (l : BitVec 7) :
    execLdecs l s = .next (waiting .fExt (extBytes l) (clearCount s)) := by
  unfold execLdecs
  cases hp : s.phase with
  | fExt => contradiction
  | idle | exec | fHdr | fKey | fPay | fPost => rfl

/-- In F_EXT LDECS holds, raises `ProtocolError`, or completes with RES_LEN and RES_CONSUMED (R74). -/
theorem execLdecs_fExt {s : State} (h : s.phase = .fExt) (l : BitVec 7) :
    execLdecs l s = onStream (extBytes l) s (finishLength l) := by
  simp [execLdecs, h]

theorem finishLength_cases (l : BitVec 7) (ext : Bytes) (s : State) :
    finishLength l ext s = .next (errored 2 s) ∨
      ∃ v, finishLength l ext s = .next (completed { s.res with len := v, consumed := s.work.cnt } s) := by
  unfold finishLength
  split
  · exact .inl rfl
  · exact .inr ⟨_, rfl⟩

/-- Everything LDECS can do. -/
theorem execLdecs_cases {l : BitVec 7} {s t : State} (h : execLdecs l s = .next t) :
    (s.phase ≠ .fExt ∧ t = waiting .fExt (extBytes l) (clearCount s)) ∨
      (s.phase = .fExt ∧
        (t = { s with status := { s.status with hold := true } } ∨
          t = errored 2 (consumed (extBytes l) s) ∨
          ∃ v n, t = completed { s.res with len := v, consumed := n } (consumed (extBytes l) s))) := by
  by_cases hp : s.phase = .fExt
  · refine .inr ⟨hp, ?_⟩
    rw [execLdecs_fExt hp] at h
    rcases onStream_cases (extBytes l) s (finishLength l) with ⟨-, e⟩ | ⟨-, e⟩ <;> rw [e] at h
    · cases h; exact .inl rfl
    · rcases finishLength_cases l (s.strm.take (extBytes l)) (consumed (extBytes l) s) with e | ⟨v, e⟩ <;> rw [e] at h
      · cases h; exact .inr (.inl rfl)
      · cases h; exact .inr (.inr ⟨v, _, rfl⟩)
  · rw [execLdecs_enters hp] at h
    cases h; exact .inl ⟨hp, rfl⟩

/-! ### FDECS: the phases in stream mode -/

/-- How a phase of a stream decode moves on from `s`: it waits in a further phase, with working registers as `P` says, or it
ends the command. -/
inductive PhaseMoves (P : Phase → WorkRegs → Prop) (s : State) : State → Prop
  | waits {ph : Phase} {w : WorkRegs} (h : P ph w) : PhaseMoves P s (waiting ph (phaseNeed ph w) { s with work := w })
  | ends {t : State} (h : DecodeEnds [2, 4] s t) : PhaseMoves P s t

theorem PhaseMoves.of_post {P : Phase → WorkRegs → Prop} {txt : Bool} {s t : State} {o : Result} (ht : o = .next t)
    (h : ∃ t, o = .next t ∧ DecodeEnds (postCodes txt) s t) : PhaseMoves P s t := by
  obtain ⟨t', e, d⟩ := h
  cases e.symm.trans ht
  exact .ends (d.mono (by cases txt <;> decide))

theorem PhaseMoves.mono {P Q : Phase → WorkRegs → Prop} {s t : State} (hPQ : ∀ ph w, P ph w → Q ph w)
    (h : PhaseMoves P s t) : PhaseMoves Q s t := by
  cases h with
  | waits h => exact .waits (hPQ _ _ h)
  | ends h => exact .ends h

/-- Only the working registers of the starting state may differ. -/
theorem PhaseMoves.of_work {P : Phase → WorkRegs → Prop} {s t : State} {w : WorkRegs}
    (h : PhaseMoves P { s with work := w } t) : PhaseMoves P s t := by
  cases h with
  | waits h => exact .waits h
  | ends h => exact .ends h

/-- HOLD of the starting state does not matter: entering a phase and ending both write it. -/
theorem PhaseMoves.of_consumed_zero {P : Phase → WorkRegs → Prop} {s t : State} (h : PhaseMoves P s t) :
    PhaseMoves P (consumed 0 s) t := by
  cases h with
  | waits h => exact .waits h
  | ends h => exact .ends h

theorem PhaseMoves.keeps {P : Phase → WorkRegs → Prop} {s t : State} (h : PhaseMoves P s t) : DecodeKeeps s t := by
  cases h with
  | waits h => exact ⟨rfl, rfl, rfl, rfl, rfl, rfl, rfl, rfl⟩
  | ends h => exact h.keeps

theorem PhaseMoves.strm {P : Phase → WorkRegs → Prop} {s t : State} (h : PhaseMoves P s t) : t.strm = s.strm := by
  cases h with
  | waits h => rfl
  | ends h => exact h.strm

/-- The length is resolved: F_KEY follows in a masked frame, F_PAY in an unmasked one that has a payload. -/
def LengthKnown (m : Nat) (w : WorkRegs) (ph : Phase) (w' : WorkRegs) : Prop :=
  ∃ v, w' = { w with plen := v } ∧ v.toNat ≤ m ∧ (ph = .fKey ∧ w.mask = true ∨ ph = .fPay ∧ w.mask = false ∧ v ≠ 0)

theorem afterLength_moves {txt : Bool} {v : BitVec 64} {s t : State} (h : afterLength streamNext txt v s = .next t) :
    PhaseMoves (LengthKnown s.maxPayload.val s.work) s t := by
  rcases afterLength_cases streamNext txt v s with ⟨-, e⟩ | ⟨hm, ⟨hk, e⟩ | ⟨hk, hv, e⟩ | ⟨-, -, hd⟩⟩
  · rw [e] at h; cases h
  · rw [e, streamNext_eq] at h; cases h
    exact .waits ⟨v, rfl, hm, .inl ⟨rfl, hk⟩⟩
  · rw [e, streamNext_eq] at h; cases h
    exact .waits ⟨v, rfl, hm, .inr ⟨rfl, hk, hv⟩⟩
  · exact .of_post h hd

theorem extPhase_moves {txt : Bool} {ext : Bytes} {s t : State} (h : extPhase streamNext txt ext s = .next t) :
    PhaseMoves (LengthKnown s.maxPayload.val s.work) s t := by
  rcases extPhase_cases streamNext txt ext s with ⟨-, e⟩ | ⟨v, -, e⟩ <;> rw [e] at h
  · cases h; exact .ends (.inl ⟨2, by decide, s.work, rfl⟩)
  · exact afterLength_moves h

/-- The key is read: F_PAY follows when there is a payload. -/
def KeyKnown (w : WorkRegs) (ph : Phase) (w' : WorkRegs) : Prop :=
  ph = .fPay ∧ w.plen ≠ 0 ∧ ∃ k, w' = { w with key := k }

theorem keyPhase_moves {txt : Bool} {bs : Bytes} {s t : State} (h : keyPhase streamNext txt bs s = .next t) :
    PhaseMoves (KeyKnown s.work) s t := by
  unfold keyPhase at h
  rcases afterKey_cases streamNext txt { s with work := { s.work with key := MaskKey.ofPulled bs } } with
    ⟨hv, e⟩ | ⟨-, hd⟩
  · rw [e, streamNext_eq] at h; cases h
    exact .waits ⟨rfl, hv, _, rfl⟩
  · exact (PhaseMoves.of_post h hd).of_work

/-- The header is read: F_EXT follows an extended-length sentinel, else the length is known. -/
def HeaderKnown (m : Nat) (w : WorkRegs) (ph : Phase) (w' : WorkRegs) : Prop :=
  (ph = .fExt ∧ extBytes w'.len7 ≠ 0 ∧ w'.cnt = w.cnt) ∨
    ∃ w₁ : WorkRegs, extBytes w₁.len7 = 0 ∧ w₁.cnt = w.cnt ∧ LengthKnown m w₁ ph w'

theorem headerPhase_moves {txt : Bool} {f : HeaderFields} {s t : State}
    (h : headerPhase streamNext txt f s = .next t) : PhaseMoves (HeaderKnown s.maxPayload.val s.work) s t := by
  rcases headerPhase_cases streamNext txt f s with ⟨hx, e⟩ | ⟨hx, e⟩ <;> rw [e] at h
  · exact (PhaseMoves.of_work (afterLength_moves h)).mono fun _ _ hl => .inr ⟨(headerLatched f s).work, hx, rfl, hl⟩
  · cases h; exact .waits (.inl ⟨rfl, hx, rfl⟩)

/-- What FDECS has established when it waits in a phase (43_frame_codec.md R83, R85); it waits in no other. -/
def WaitsWith (m : Nat) : Phase → WorkRegs → Prop
  | .fHdr, w => w.cnt = 0
  | .fExt, w => w.cnt = 2 ∧ extBytes w.len7 ≠ 0
  | .fKey, w => w.mask = true ∧ w.cnt.toNat = 2 + extBytes w.len7 ∧ w.plen.toNat ≤ m
  | .fPay, w =>
    w.cnt.toNat = 2 + extBytes w.len7 + (if w.mask then 4 else 0) ∧ 0 < w.plen.toNat ∧ w.plen.toNat ≤ m
  | .idle, _ | .exec, _ | .fPost, _ => False

theorem toNat_pos_of_ne_zero {v : BitVec 64} (h : v ≠ 0) : 0 < v.toNat :=
  Nat.pos_of_ne_zero (BitVec.toNat_ne_iff_ne.mpr h)

theorem LengthKnown.waitsWith {m : Nat} {w w' : WorkRegs} {ph : Phase} (hc : w.cnt.toNat = 2 + extBytes w.len7)
    (h : LengthKnown m w ph w') : WaitsWith m ph w' := by
  obtain ⟨v, rfl, hm, ⟨rfl, hk⟩ | ⟨rfl, hk, hv⟩⟩ := h
  · exact ⟨hk, hc, hm⟩
  · exact ⟨by simp [hc, hk], toNat_pos_of_ne_zero hv, hm⟩

theorem HeaderKnown.waitsWith {m : Nat} {w w' : WorkRegs} {ph : Phase} (hc : w.cnt = 2)
    (h : HeaderKnown m w ph w') : WaitsWith m ph w' := by
  rcases h with ⟨rfl, hx, hw⟩ | ⟨w₁, hx, hw, hl⟩
  · exact ⟨hw.trans hc, hx⟩
  · exact hl.waitsWith (by rw [hx, hw, hc]; rfl)

theorem KeyKnown.waitsWith {m : Nat} {w w' : WorkRegs} {ph : Phase} (hs : WaitsWith m .fKey w)
    (h : KeyKnown { w with cnt := w.cnt + 4 } ph w') : WaitsWith m ph w' := by
  obtain ⟨hk, hc, hm⟩ := hs
  obtain ⟨rfl, hv, k, rfl⟩ := h
  refine ⟨?_, toNat_pos_of_ne_zero hv, hm⟩
  have hx := extBytes_cases w.len7
  simp only [hk, if_true, BitVec.toNat_add, hc]
  change (2 + extBytes w.len7 + 4) % 2 ^ 64 = _
  omega

/-- FDECS enters F_HDR at issue with W_CNT = 0 (R83). -/
theorem execFdecs_enters {s : State} (h : s.phase = .exec) (txt : Bool) :
    execFdecs txt s = .next (waiting .fHdr 2 (clearCount s)) := by
  simp [execFdecs, h, phaseNeed]

/-- One move of FDECS from `s`: it holds, or it consumes a phase's bytes and then waits in a further phase or ends. A decode
that waited as it should goes on to wait as it should. -/
def FdecsMoves (s t : State) : Prop :=
  t = { s with status := { s.status with hold := true } } ∨
    ∃ n, PhaseMoves (fun ph w => WaitsWith s.maxPayload.val s.phase s.work → WaitsWith s.maxPayload.val ph w)
      (consumed n s) t

/-- A stream-mode pull of FDECS holds or goes on. -/
theorem FdecsMoves.onStream {n : Nat} {s t : State} {k : Bytes → State → Result} (h : onStream n s k = .next t)
    (hk : ∀ bs, k bs (consumed n s) = .next t →
      PhaseMoves (fun ph w => WaitsWith s.maxPayload.val s.phase s.work → WaitsWith s.maxPayload.val ph w)
        (consumed n s) t) : FdecsMoves s t := by
  rcases onStream_cases n s k with ⟨-, e⟩ | ⟨-, e⟩ <;> rw [e] at h
  · cases h; exact .inl rfl
  · exact .inr ⟨n, hk _ h⟩

/-- F_HDR once its two bytes are consumed. -/
theorem headerPhase_waitsWith {txt : Bool} {f : HeaderFields} {hdr : BitVec 16} {s t : State} (hp : s.phase = .fHdr)
    (h : headerPhase streamNext txt f (latchHeader hdr (consumed 2 s)) = .next t) :
    PhaseMoves (fun ph w => WaitsWith s.maxPayload.val s.phase s.work → WaitsWith s.maxPayload.val ph w)
      (consumed 2 s) t := by
  refine (headerPhase_moves h).of_work.mono fun ph w hw hs => hw.waitsWith ?_
  rw [hp] at hs
  have hc : s.work.cnt = 0 := hs
  simp [hc]

theorem execFdecs_moves {txt : Bool} {s t : State} (h : execFdecs txt s = .next t) : FdecsMoves s t := by
  unfold execFdecs at h
  cases hp : s.phase with
  | idle | exec =>
    rw [hp] at h
    cases h
    exact .inr ⟨0, .of_consumed_zero (.waits (ph := .fHdr) fun hs => by rw [hp] at hs; exact hs.elim)⟩
  | fHdr =>
    rw [hp] at h
    exact .onStream h fun bs h => headerPhase_waitsWith hp h
  | fExt =>
    rw [hp] at h
    refine .onStream h fun bs h => (extPhase_moves h).mono fun ph w hw hs => hw.waitsWith ?_
    rw [hp] at hs
    obtain ⟨hc, -⟩ := hs
    have hx := extBytes_cases s.work.len7
    have htwo : (2 : BitVec 64).toNat = 2 := rfl
    simp only [consumed_work, phaseNeed, BitVec.toNat_add, BitVec.toNat_ofNat, hc, htwo]
    omega
  | fKey =>
    rw [hp] at h
    refine .onStream h fun bs h => (keyPhase_moves h).mono fun ph w hw hs => ?_
    rw [hp] at hs
    exact hw.waitsWith hs
  | fPay =>
    rw [hp] at h
    exact .onStream h fun bs h => .of_post h (payPhase_ends txt bs _)
  | fPost =>
    rw [hp] at h
    exact .inr ⟨0, .of_consumed_zero (.of_post h (finishFrame_ends txt s))⟩

theorem consumed_keeps (n : Nat) (s : State) : DecodeKeeps s (consumed n s) := ⟨rfl, rfl, rfl, rfl, rfl, rfl, rfl, rfl⟩

theorem FdecsMoves.keeps {s t : State} (h : FdecsMoves s t) : DecodeKeeps s t := by
  rcases h with rfl | ⟨n, h⟩
  · exact ⟨rfl, rfl, rfl, rfl, rfl, rfl, rfl, rfl⟩
  · exact (consumed_keeps n s).trans h.keeps

theorem FdecsMoves.strm {s t : State} (h : FdecsMoves s t) : ∃ n, t.strm = s.strm.drop n := by
  rcases h with rfl | ⟨n, h⟩
  · exact ⟨0, rfl⟩
  · exact ⟨n, h.strm⟩

end Sys2Proof.Machine
end

section
/-! PROOFS. The step, its two agents that run commands, and the statements of 10_state.md about issue, ends and frames. -/

namespace Sys2Proof.Machine

/-! ### The error exit, completion and reset -/

/-- Settles O8: both ends are the spec's by definition. -/
theorem errorExitAndCompletion : Obligations.ErrorExitAndCompletion :=
  ⟨raise_eq, complete_eq, rfl⟩

/-- Settles O41. -/
theorem resetRegisterValues : Obligations.ResetRegisterValues :=
  fun _ => ⟨rfl, rfl, rfl, rfl, rfl, rfl, _, rfl⟩

theorem powerOn_inv (m : Fin 0x8000000000000000) : (State.powerOn m).Inv where
  phase := rfl
  command := rfl
  status := rfl
  errcode := rfl
  results := rfl
  work := fun h => by cases h
  operands := by simp [State.powerOn, OpRegs.fits, OpRegs.cleared]

/-- Settles O42. -/
theorem resetMeetsInv : Obligations.ResetMeetsInv :=
  ⟨powerOn_inv, powerOn_inv _⟩

/-! ### The issue step -/

/-- An issue of operands that fit and of a legal word runs the command on the latched state (10_state.md R30). -/
theorem step_issue_exec {s : State} {p : PortCmd} {rest : List Input} {i : Instr} (hb : s.status.busy = false)
    (hi : s.inputs = .issue p :: rest) (hf : p.ops.fits s.maxPayload.val = true) (hd : decodeCommand p.cw = .ok i) :
    step s = exec i (latch p { s with inputs := rest }) := by
  rw [step_issue hi hb, issueStep, if_pos hf, runIssued, latch_cmd, hd]

/-- Settles O5: the latch of R30 is `issued` with PHASE = EXEC. -/
theorem issueRunsTheCommand : Obligations.IssueRunsTheCommand :=
  fun _ _ _ _ hb hi hf hd => step_issue_exec hb hi hf hd

theorem CommandEnds.ended {i : Instr} {s t : State} (h : CommandEnds i s t) :
    t.phase = .idle ∧ t.status.busy = false ∧ t.status.done = true ∧ t.status.hold = false ∧ t.inputs = s.inputs := by
  cases h with
  | errors _ hs | completes _ hs =>
    obtain ⟨w, sh, ks, n, rfl, -⟩ := hs
    exact ⟨rfl, rfl, rfl, rfl, rfl⟩

/-- Settles O53: the issue runs the command, which ends at once. -/
theorem nonStreamCommandsEndInOneStep : Obligations.NonStreamCommandsEndInOneStep := by
  intro i s p rest hn hb hi hf hd
  rw [step_issue_exec hb hi hf hd]
  rcases exec_endsAtOnce hn (latch p { s with inputs := rest }) with h | ⟨t, e, h⟩
  · exact .inl h
  · obtain ⟨hph, hbusy, hdone, -, hin⟩ := h.ended
    exact .inr ⟨t, e, hph, hbusy, hdone, hin⟩

/-- Settles O49: what a command that ends at once spends and writes. -/
theorem nonStreamFrame : Obligations.NonStreamFrame := by
  intro i s t hn ht
  rcases exec_endsAtOnce hn s with (h | h) | ⟨t', e, h⟩
  · rw [h] at ht; cases ht
  · rw [h] at ht; cases ht
  · rw [e] at ht; cases ht
    cases h with
    | errors _ hs =>
      obtain ⟨w, sh, ks, n, rfl, hw, hsh, hk⟩ := hs
      exact ⟨rfl, rfl, rfl, rfl, rfl, rfl, rfl, rfl, rfl, hw, hsh, hk, rfl, fun _ _ => rfl⟩
    | completes hr hs =>
      obtain ⟨w, sh, ks, n, rfl, hw, hsh, hk⟩ := hs
      refine ⟨rfl, rfl, rfl, rfl, rfl, rfl, rfl, rfl, rfl, hw, hsh, hk, hr, fun h h' => ?_⟩
      cases h.symm.trans h'

/-! ### Frames of the stream commands and of the engine -/

/-- LDECS keeps what FDECS keeps, and writes no result but RES_LEN and RES_CONSUMED. -/
theorem execLdecs_keeps {l : BitVec 7} {s t : State} (h : execLdecs l s = .next t) :
    DecodeKeeps s t ∧ (∃ n, t.strm = s.strm.drop n) ∧
      blankOwnResults (.ldecs l) t.res = blankOwnResults (.ldecs l) s.res := by
  rcases execLdecs_cases h with ⟨-, rfl⟩ | ⟨-, rfl | rfl | ⟨v, n, rfl⟩⟩
  · exact ⟨⟨rfl, rfl, rfl, rfl, rfl, rfl, rfl, rfl⟩, ⟨0, rfl⟩, rfl⟩
  · exact ⟨⟨rfl, rfl, rfl, rfl, rfl, rfl, rfl, rfl⟩, ⟨0, rfl⟩, rfl⟩
  · exact ⟨⟨rfl, rfl, rfl, rfl, rfl, rfl, rfl, rfl⟩, ⟨_, rfl⟩, rfl⟩
  · exact ⟨⟨rfl, rfl, rfl, rfl, rfl, rfl, rfl, rfl⟩, ⟨_, rfl⟩, rfl⟩

/-- Settles O50, by the three kinds of stream instructions. -/
theorem streamFrame : Obligations.StreamFrame := by
  intro i s t hn ht
  have key : DecodeKeeps s t ∧ (∃ n, t.strm = s.strm.drop n) ∧ blankOwnResults i t.res = blankOwnResults i s.res := by
    rcases stream_kind hn with ⟨l, rfl⟩ | ⟨x, rfl⟩ | ⟨hb, f, hf⟩
    · exact execLdecs_keeps ht
    · have hm := execFdecs_moves ht
      exact ⟨hm.keeps, hm.strm, hm.keeps.res⟩
    · rw [hf] at ht
      have hm := headerPhase_moves ht
      exact ⟨hm.keeps, ⟨0, hm.strm⟩, by rw [hb]; exact hm.keeps.res⟩
  obtain ⟨k, hstrm, hres⟩ := key
  exact ⟨k.cmd, k.ops, k.inputs, k.maxPayload, k.sha, k.keyDraws, k.drawCount, hstrm, hres⟩

/-- What the engine does with an FDECS in flight: in F_HDR with the header there, the header row runs the same F_HDR that
FDECS would. -/
theorem engineFrame_moves {txt : Bool} {s t : State} (h : engineFrame txt s = .next t) : FdecsMoves s t := by
  unfold engineFrame at h
  cases hp : s.phase with
  | idle | exec => rw [hp] at h; cases h
  | fExt | fKey | fPay | fPost => rw [hp] at h; exact execFdecs_moves h
  | fHdr =>
    simp only [hp] at h
    split at h
    · exact execFdecs_moves h
    · rw [exec_decodeHeader] at h
      exact .inr ⟨2, headerPhase_waitsWith hp h⟩

/-- The engine moves LDECS only in F_EXT. -/
theorem engineLength_exec {l : BitVec 7} {s t : State} (h : engineLength l s = .next t) :
    s.phase = .fExt ∧ execLdecs l s = .next t := by
  unfold engineLength at h
  cases hp : s.phase with
  | fExt => rw [hp] at h; exact ⟨rfl, h⟩
  | idle | exec | fHdr | fKey | fPay | fPost => rw [hp] at h; cases h

/-- The engine never writes CMD, the operands, the schedule, MAX_PAYLOAD or the draws. -/
theorem engineStep_keeps {s t : State} (h : engineStep s = .next t) : DecodeKeeps s t := by
  rcases engineStep_cases s with ⟨-, e⟩ | ⟨-, ⟨txt, -, e⟩ | ⟨l, -, e⟩ | e⟩ <;> rw [e] at h
  · cases h; exact .refl s
  · exact (engineFrame_moves h).keeps
  · exact (execLdecs_keeps (engineLength_exec h).2).1
  · cases h

/-- Settles O7: the engine moves and keeps the schedule. -/
theorem busyIssueWaits : Obligations.BusyIssueWaits := by
  intro s t p rest hb hi ht
  rw [step_issue_busy hi hb] at ht
  have k := engineStep_keeps ht
  exact ⟨k.inputs, k.cmd, k.ops⟩

/-! ### Engine steps -/

/-- Two stream bytes read as a header word (20_memory.md R41). -/
theorem headerOfBytes_two (a b : Byte) : headerOfBytes [a, b] = (a ++ b : BitVec 16) := by
  apply BitVec.eq_of_toNat_eq
  have ha := a.isLt
  have hb := b.isLt
  rw [headerOfBytes, frombe_two, BitVec.toNat_ofNat, BitVec.toNat_append, ← Nat.shiftLeft_add_eq_or_of_lt hb,
    Nat.shiftLeft_eq]
  omega

/-- F_HDR with its two bytes there: the header is fetched and its row runs. -/
theorem engineFrame_header {txt : Bool} {s : State} {a b : Byte} {tl : Bytes} (hp : s.phase = .fHdr)
    (hs : s.strm = a :: b :: tl) : engineFrame txt s = exec (decodeHeader (a ++ b : BitVec 16))
      (latchHeader (a ++ b : BitVec 16) { consumed 2 s with strm := tl }) := by
  have hf : fetchedHeader s = (a ++ b : BitVec 16) := by
    rw [fetchedHeader, hs]; exact headerOfBytes_two a b
  have ht : consumed 2 s = { consumed 2 s with strm := tl } := by
    simp [consumed, hs]
  have hl : ¬ s.strm.length < 2 := by simp [hs]
  simp only [engineFrame, hp, if_neg hl, fetchHeader, hf, pullStream_eq]
  rw [ht]

theorem engineFrame_exec {txt : Bool} {s : State}
    (h : s.phase ∈ [Phase.fExt, .fKey, .fPay] ∨ (s.phase = .fHdr ∧ s.strm.length < 2)) :
    engineFrame txt s = exec (.fdecs txt) s := by
  rcases h with h | ⟨hp, hl⟩
  · simp only [List.mem_cons, List.not_mem_nil, or_false] at h
    rcases h with hp | hp | hp <;> simp only [engineFrame, hp]
  · simp only [engineFrame, hp, if_pos hl]

theorem engineLength_fExt {l : BitVec 7} {s : State} (hp : s.phase = .fExt) :
    engineLength l s = exec (.ldecs l) s := by
  simp only [engineLength, hp]

/-- Settles O6: the engine's move by the command in flight and its phase. -/
theorem engineRunsTheCommandInFlight : Obligations.EngineRunsTheCommandInFlight := by
  intro s rest hb hi
  rw [step_engine hi]
  refine ⟨fun txt a b tl hc hp hs => ?_, fun txt hc h => ?_, fun l hc hp => ?_⟩
  · exact (engineStep_fdecs (s := { s with inputs := rest }) hb hc).trans (engineFrame_header hp hs)
  · exact (engineStep_fdecs (s := { s with inputs := rest }) hb hc).trans (engineFrame_exec h)
  · exact (engineStep_ldecs (s := { s with inputs := rest }) hb hc).trans (engineLength_fExt hp)

/-! ### What a step can be -/

/-- Everything a step that goes on can be: a move of the engine (an issue waits while BUSY), an issue while idle, bytes
arriving at or taken from STRM, or a reset. -/
inductive StepMoves (s : State) : State → Prop
  | engine {inp : List Input} {t : State} (h : engineStep { s with inputs := inp } = .next t) : StepMoves s t
  | issue {p : PortCmd} {rest : List Input} {t : State} (hb : s.status.busy = false) (hi : s.inputs = .issue p :: rest)
      (h : issueStep p { s with inputs := rest } = .next t) : StepMoves s t
  | stream (bs : Bytes) (inp : List Input) : StepMoves s { s with strm := bs, inputs := inp }
  | reset {rest : List Input} (hi : s.inputs = .reset :: rest) : StepMoves s { resetRegs s with inputs := rest }

theorem step_moves {s t : State} (h : step s = .next t) : StepMoves s t := by
  rcases hi : s.inputs with _ | ⟨a, rest⟩
  · rw [step_engine_empty hi] at h
    exact .engine (inp := s.inputs) h
  · cases a with
    | engine => rw [step_engine hi] at h; exact .engine h
    | arrive bs => rw [step_arrive hi] at h; cases h; exact .stream _ _
    | take n => rw [step_take hi] at h; cases h; exact .stream _ _
    | reset => rw [step_reset hi] at h; cases h; exact .reset hi
    | issue p =>
      cases hb : s.status.busy with
      | false => rw [step_issue hi hb] at h; exact .issue hb hi h
      | true => rw [step_issue_busy hi hb] at h; exact .engine (inp := s.inputs) h

/-- What an issue that goes on can be, by the kind of the command: it ends at once (an illegal word with ERRCODE 6), or a stream
decode enters its first phase. -/
inductive IssueMoves (p : PortCmd) (s : State) : State → Prop
  | illegal : IssueMoves p s (errored 6 (latch p s))
  | ends {i : Instr} {t : State} (h : CommandEnds i (latch p s) t) : IssueMoves p s t
  | fdecs {txt : Bool} (hc : decodeCommand p.cw = .ok (.fdecs txt)) :
      IssueMoves p s (waiting .fHdr 2 (clearCount (latch p s)))
  | ldecs {l : BitVec 7} (hc : decodeCommand p.cw = .ok (.ldecs l)) :
      IssueMoves p s (waiting .fExt (extBytes l) (clearCount (latch p s)))

theorem exec_issueMoves {p : PortCmd} {i : Instr} {s t : State} (hd : decodeCommand p.cw = .ok i)
    (h : exec i (latch p s) = .next t) : IssueMoves p s t := by
  rcases decodeCommand_kind hd with hn | ⟨l, rfl⟩ | ⟨x, rfl⟩
  · rcases exec_endsAtOnce hn (latch p s) with (e | e) | ⟨t', e, he⟩ <;> rw [e] at h <;> cases h
    exact .ends he
  · have e : exec (.ldecs l) (latch p s) = .next (waiting .fExt (extBytes l) (clearCount (latch p s))) :=
      execLdecs_enters (s := latch p s) (by simp) l
    rw [e] at h; cases h; exact .ldecs hd
  · have e : exec (.fdecs x) (latch p s) = .next (waiting .fHdr 2 (clearCount (latch p s))) :=
      execFdecs_enters (s := latch p s) rfl x
    rw [e] at h; cases h; exact .fdecs hd

theorem issueStep_moves {p : PortCmd} {s t : State} (h : issueStep p s = .next t) :
    p.ops.fits s.maxPayload.val = true ∧ IssueMoves p s t := by
  rcases issueStep_cases p s with ⟨-, e⟩ | ⟨hf, ⟨i, hd, e⟩ | ⟨err, -, e⟩⟩ <;> rw [e] at h
  · cases h
  · exact ⟨hf, exec_issueMoves hd h⟩
  · cases h; exact ⟨hf, .illegal⟩

theorem CommandEnds.operands {i : Instr} {s t : State} (h : CommandEnds i s t) :
    t.cmd = s.cmd ∧ t.ops = s.ops ∧ t.maxPayload = s.maxPayload := by
  cases h with
  | errors _ hs | completes _ hs =>
    obtain ⟨w, sh, ks, n, rfl, -⟩ := hs
    exact ⟨rfl, rfl, rfl⟩

/-- An issue leaves the port's command and operands in their registers. -/
theorem IssueMoves.operands {p : PortCmd} {s t : State} (h : IssueMoves p s t) :
    t.cmd = p.cw ∧ t.ops = p.ops ∧ t.maxPayload = s.maxPayload := by
  cases h with
  | ends h => exact h.operands
  | illegal | fdecs | ldecs => exact ⟨rfl, rfl, rfl⟩

/-- Settles O48, by the agent that moves. -/
theorem operandsChangeOnlyAtIssue : Obligations.OperandsChangeOnlyAtIssue := by
  intro s t h
  cases step_moves h with
  | engine h =>
    have k := engineStep_keeps h
    exact ⟨k.maxPayload, .inl ⟨k.cmd, k.ops⟩⟩
  | issue hb hi h =>
    obtain ⟨hc, ho, hm⟩ := (issueStep_moves h).2.operands
    exact ⟨hm, .inr (.inl ⟨_, _, hb, hi, hc, ho⟩)⟩
  | stream => exact ⟨rfl, .inl ⟨rfl, rfl⟩⟩
  | reset hi => exact ⟨rfl, .inr (.inr ⟨_, hi⟩)⟩

end Sys2Proof.Machine
end

section
/-! PROOFS. The invariant is kept by every step (10_state.md R18 to R24). -/

namespace Sys2Proof.Machine

/-! ### A command in flight -/

/-- What holds from the latch of an issue to the command's end (R30, R22, R23, R24). -/
structure Running (s : State) : Prop where
  busy : s.status.busy = true
  done : s.status.done = false
  err : s.status.err = false
  errcode : s.errcode = 0
  res : s.res = .cleared
  fits : s.ops.fits s.maxPayload.val = true

theorem running_latch {p : PortCmd} {s : State} (h : p.ops.fits s.maxPayload.val = true) : Running (latch p s) :=
  ⟨rfl, rfl, rfl, rfl, rfl, h⟩

theorem State.Inv.running {s : State} (h : s.Inv) (hb : s.status.busy = true) : Running s := by
  have hst := h.status
  have her := h.errcode
  have hres := h.results
  simp only [statusLegal, hb, if_true, Bool.and_eq_true, Bool.not_eq_true'] at hst
  obtain ⟨hd, he⟩ := hst
  exact ⟨hb, hd, he, by simpa [errcodeLegal, he] using her, by simpa [resultsLegal, hb] using hres, h.operands⟩

theorem Running.consumed {s : State} (h : Running s) (n : Nat) : Running (consumed n s) :=
  ⟨h.busy, h.done, h.err, h.errcode, h.res, h.fits⟩

theorem Running.withWork {s : State} (h : Running s) (w : WorkRegs) : Running { s with work := w } :=
  ⟨h.busy, h.done, h.err, h.errcode, h.res, h.fits⟩

/-- What a command spends does not touch this. -/
theorem Running.spent {i : Instr} {s s' : State} (h : Running s) (hs : Spent i s s') : Running s' := by
  obtain ⟨w, sh, ks, n, rfl, -⟩ := hs
  exact ⟨h.busy, h.done, h.err, h.errcode, h.res, h.fits⟩

/-! ### The ends and the waits meet the invariant -/

theorem errored_inv {c : BitVec 4} {s : State} (hc : c ∈ ([1, 2, 3, 4, 6] : List (BitVec 4))) (h : Running s) :
    (errored c s).Inv where
  phase := rfl
  command := rfl
  status := rfl
  errcode := by simpa [errcodeLegal, or_assoc] using hc
  results := by simp [resultsLegal, h.res]
  work := fun hb => by cases hb
  operands := h.fits

theorem completed_inv {r : ResRegs} {s : State} (h : Running s) : (completed r s).Inv where
  phase := rfl
  command := rfl
  status := by simp [statusLegal, h.err]
  errcode := by simp [errcodeLegal, h.err, h.errcode]
  results := by simp [resultsLegal, h.err]
  work := fun hb => by cases hb
  operands := h.fits

theorem commandEnds_inv {i : Instr} {s t : State} (h : Running s) (he : CommandEnds i s t) : t.Inv := by
  cases he with
  | errors hc hs =>
    have sub : ([1, 2, 3, 4] : List (BitVec 4)) ⊆ [1, 2, 3, 4, 6] := by decide
    exact errored_inv (sub hc) (h.spent hs)
  | completes hr hs => exact completed_inv (h.spent hs)

theorem decodeEnds_inv {s t : State} (h : Running s) (he : DecodeEnds [2, 4] s t) : t.Inv := by
  rcases he with ⟨c, hc, w, rfl⟩ | ⟨r, w, -, rfl⟩
  · have sub : ([2, 4] : List (BitVec 4)) ⊆ [1, 2, 3, 4, 6] := by decide
    exact errored_inv (sub hc) (h.withWork w)
  · exact completed_inv (h.withWork w)

/-- For FDECS, what the invariant says of the working registers is `WaitsWith` of the phase. -/
theorem workLegal_fdecs {s : State} {txt : Bool} (hc : decodeCommand s.cmd = .ok (.fdecs txt))
    (hp : s.phase ∈ [Phase.fHdr, .fExt, .fKey, .fPay]) :
    workLegal s = true ↔ WaitsWith s.maxPayload.val s.phase s.work := by
  simp only [List.mem_cons, List.not_mem_nil, or_false] at hp
  rcases hp with hp | hp | hp | hp <;> simp [workLegal, hc, hp, WaitsWith, and_assoc]

theorem WaitsWith.reads {m : Nat} {ph : Phase} {w : WorkRegs} (h : WaitsWith m ph w) :
    ph ∈ [Phase.fHdr, .fExt, .fKey, .fPay] := by
  cases ph with
  | idle | exec | fPost => exact h.elim
  | fHdr | fExt | fKey | fPay => decide

theorem phaseLegal_of_reads {s : State} (hb : s.status.busy = true) (hp : s.phase ∈ [Phase.fHdr, .fExt, .fKey, .fPay]) :
    phaseLegal s = true := by
  simp only [List.mem_cons, List.not_mem_nil, or_false] at hp
  rcases hp with hp | hp | hp | hp <;> simp [phaseLegal, hp, hb]

/-- A busy state that meets the invariant waits in a phase that reads stream bytes. -/
theorem State.Inv.reads {s : State} (h : s.Inv) (hb : s.status.busy = true) :
    s.phase ∈ [Phase.fHdr, .fExt, .fKey, .fPay] := by
  have hph := h.phase
  cases hp : s.phase <;> simp [phaseLegal, hp, hb] at hph ⊢

/-- A state with a command in flight meets the invariant when its phase, its command and its working registers agree. -/
theorem Running.inv {s : State} (h : Running s) (hp : s.phase ∈ [Phase.fHdr, .fExt, .fKey, .fPay])
    (hc : commandLegal s = true) (hw : workLegal s = true) : s.Inv where
  phase := phaseLegal_of_reads h.busy hp
  command := hc
  status := by simp [statusLegal, h.busy, h.done, h.err]
  errcode := by simp [errcodeLegal, h.err, h.errcode]
  results := by simp [resultsLegal, h.res]
  work := fun _ => hw
  operands := h.fits

theorem Running.waiting {s : State} (h : Running s) (ph : Phase) (n : Nat) (w : WorkRegs) :
    Running (waiting ph n { s with work := w }) :=
  ⟨h.busy, h.done, h.err, h.errcode, h.res, h.fits⟩

theorem waiting_fdecs_inv {s : State} {txt : Bool} {ph : Phase} {w : WorkRegs} (n : Nat) (h : Running s)
    (hc : decodeCommand s.cmd = .ok (.fdecs txt)) (hw : WaitsWith s.maxPayload.val ph w) :
    (waiting ph n { s with work := w }).Inv :=
  (h.waiting ph n w).inv hw.reads (by simp [commandLegal, hc])
    ((workLegal_fdecs (s := waiting ph n { s with work := w }) hc hw.reads).mpr hw)

theorem waiting_ldecs_inv {s : State} {l : BitVec 7} (n : Nat) (h : Running s)
    (hc : decodeCommand s.cmd = .ok (.ldecs l)) (hw : s.work.cnt = 0) : (waiting .fExt n s).Inv :=
  (h.waiting .fExt n s.work).inv (by simp) (by simp [commandLegal, hc]) (by simp [workLegal, hc, hw])

theorem State.Inv.hold {s : State} (h : s.Inv) (hb : s.status.busy = true) :
    State.Inv { s with status := { s.status with hold := true } } where
  phase := h.phase
  command := h.command
  status := by have hr := h.running hb; simp [statusLegal, hr.busy, hr.done, hr.err]
  errcode := h.errcode
  results := h.results
  work := h.work
  operands := h.operands

/-! ### Every step keeps the invariant -/

theorem fdecsMoves_inv {s t : State} {txt : Bool} (h : s.Inv) (hb : s.status.busy = true)
    (hc : decodeCommand s.cmd = .ok (.fdecs txt)) (hm : FdecsMoves s t) : t.Inv := by
  have hr := h.running hb
  have hs : WaitsWith s.maxPayload.val s.phase s.work := (workLegal_fdecs hc (h.reads hb)).mp (h.work hb)
  rcases hm with rfl | ⟨n, hm⟩
  · exact h.hold hb
  · cases hm with
    | waits hw => exact waiting_fdecs_inv (s := consumed n s) _ (hr.consumed n) hc (hw hs)
    | ends he => exact decodeEnds_inv (hr.consumed n) he

theorem execLdecs_inv {s t : State} {l : BitVec 7} (h : s.Inv) (hb : s.status.busy = true) (hp : s.phase = .fExt)
    (ht : execLdecs l s = .next t) : t.Inv := by
  have hr := h.running hb
  rcases execLdecs_cases ht with ⟨hn, -⟩ | ⟨-, rfl | rfl | ⟨v, n, rfl⟩⟩
  · contradiction
  · exact h.hold hb
  · exact errored_inv (by decide) (hr.consumed _)
  · exact completed_inv (hr.consumed _)

theorem engineStep_inv {s t : State} (h : s.Inv) (ht : engineStep s = .next t) : t.Inv := by
  rcases engineStep_cases s with ⟨-, e⟩ | ⟨hb, ⟨txt, hc, e⟩ | ⟨l, -, e⟩ | e⟩ <;> rw [e] at ht
  · cases ht; exact h
  · exact fdecsMoves_inv h hb hc (engineFrame_moves ht)
  · obtain ⟨hp, ht⟩ := engineLength_exec ht
    exact execLdecs_inv h hb hp ht
  · cases ht

/-- An issue establishes the invariant, whatever the state before it. -/
theorem issueStep_inv {p : PortCmd} {s t : State} (ht : issueStep p s = .next t) : t.Inv := by
  obtain ⟨hf, hm⟩ := issueStep_moves ht
  have hr : Running (latch p s) := running_latch hf
  cases hm with
  | illegal => exact errored_inv (by decide) hr
  | ends he => exact commandEnds_inv hr he
  | fdecs hc => exact waiting_fdecs_inv (s := latch p s) 2 hr hc (w := { s.work with cnt := 0 }) rfl
  | ldecs hc => exact waiting_ldecs_inv _ (hr.withWork _) hc rfl

/-- A reset establishes the invariant, as power-on does (70_reset_and_hazards.md R123). -/
theorem resetRegs_inv (s : State) : (resetRegs s).Inv where
  phase := rfl
  command := rfl
  status := rfl
  errcode := rfl
  results := rfl
  work := fun h => by cases h
  operands := by simp [OpRegs.fits, OpRegs.cleared]

/-- The invariant does not read STRM or the schedule. -/
theorem State.Inv.of_stream {s : State} (h : s.Inv) (bs : Bytes) (inp : List Input) :
    State.Inv { s with strm := bs, inputs := inp } :=
  ⟨h.phase, h.command, h.status, h.errcode, h.results, h.work, h.operands⟩

/-- Settles O43, by the agent that moves. -/
theorem stepKeepsInv : Obligations.StepKeepsInv := by
  intro s t h ht
  cases step_moves ht with
  | engine ht => exact engineStep_inv (h.of_stream s.strm _) ht
  | issue hb hi ht => exact issueStep_inv ht
  | stream bs inp => exact h.of_stream bs inp
  | reset hi => exact (resetRegs_inv s).of_stream s.strm _

end Sys2Proof.Machine
end

section
/-! PROOFS. What the host sees does not depend on working registers that nothing in flight has written (10_state.md R17, R25,
R26). Two runs are compared phase by phase; each phase needs agreement only on what the decode knows there. -/

namespace Sys2Proof.Machine

/-! ### SHA-1: the digest does not depend on the registers' old values -/

/-- The same chaining words. -/
structure SameChain (r q : ShaRegs) : Prop where
  h0 : r.h0 = q.h0
  h1 : r.h1 = q.h1
  h2 : r.h2 = q.h2
  h3 : r.h3 = q.h3
  h4 : r.h4 = q.h4

/-- The same chaining words and round variables. -/
structure SameRound (r q : ShaRegs) : Prop extends SameChain r q where
  a : r.a = q.a
  b : r.b = q.b
  c : r.c = q.c
  d : r.d = q.d
  e : r.e = q.e

theorem SameRound.sha1Round {r q : ShaRegs} (h : SameRound r q) (t : Nat) (w : Word32) :
    SameRound (sha1Round t w r) (sha1Round t w q) :=
  { h.toSameChain with
    a := by simp [Machine.sha1Round, h.a, h.b, h.c, h.d, h.e]
    b := h.a
    c := by simp [Machine.sha1Round, h.b]
    d := h.c
    e := h.d }

theorem SameRound.sha1Rounds {r q : ShaRegs} (h : SameRound r q) (t : Nat) (ws : List Word32) :
    SameRound (sha1Rounds t ws r) (sha1Rounds t ws q) := by
  induction ws generalizing t r q with
  | nil => exact h
  | cons w ws ih => exact ih (h.sha1Round t w) (t + 1)

theorem SameRound.closeBlock {r q : ShaRegs} (h : SameRound r q) : SameChain (closeBlock r) (closeBlock q) where
  h0 := congrArg₂ (· + ·) h.h0 h.a
  h1 := congrArg₂ (· + ·) h.h1 h.b
  h2 := congrArg₂ (· + ·) h.h2 h.c
  h3 := congrArg₂ (· + ·) h.h3 h.d
  h4 := congrArg₂ (· + ·) h.h4 h.e

/-- Opening a block loads the round variables from the chaining words, so nothing older is read (44_accept_sha1.md R96). -/
theorem SameChain.openBlock {r q : ShaRegs} (h : SameChain r q) (i : Nat) (b : Bytes) :
    SameRound (openBlock i b r) (openBlock i b q) :=
  ⟨⟨h.h0, h.h1, h.h2, h.h3, h.h4⟩, h.h0, h.h1, h.h2, h.h3, h.h4⟩

theorem SameChain.sha1Block {r q : ShaRegs} (h : SameChain r q) (i : Nat) (b : Bytes) :
    SameChain (sha1Block i b r) (sha1Block i b q) := by
  have hwt : (Machine.openBlock i b q).wt = (Machine.openBlock i b r).wt := rfl
  simp only [Machine.sha1Block, hwt]
  exact ((h.openBlock i b).sha1Rounds 0 _).closeBlock

/-- The loop of `sha1Blocks` over any block function: with the block function abstract, the loop unfolds without the kernel
evaluating a block. -/
def foldBlocks (f : Nat → Bytes → ShaRegs → ShaRegs) : Nat → List Bytes → ShaRegs → ShaRegs
  | _, [], r => r
  | i, b :: bs, r => foldBlocks f (i + 1) bs (f i b r)

theorem sha1Blocks_eq_foldBlocks : sha1Blocks = foldBlocks sha1Block := by
  delta sha1Blocks foldBlocks
  rfl

theorem sha1Blocks_cons (i : Nat) (b : Bytes) (bs : List Bytes) (r : ShaRegs) :
    sha1Blocks i (b :: bs) r = sha1Blocks (i + 1) bs (sha1Block i b r) := by
  rw [sha1Blocks_eq_foldBlocks, foldBlocks]

theorem SameChain.sha1Blocks {r q : ShaRegs} (h : SameChain r q) (i : Nat) (bs : List Bytes) :
    SameChain (sha1Blocks i bs r) (sha1Blocks i bs q) := by
  induction bs generalizing i r q with
  | nil => exact h
  | cons b bs ih =>
    rw [sha1Blocks_cons, sha1Blocks_cons]
    exact ih (h.sha1Block i b) (i + 1)

/-- The chaining words are loaded at the start of every run, so the digest depends on the message alone (R96). -/
theorem digest_sha1Run (m : Bytes) (r q : ShaRegs) : digest (sha1Run m r) = digest (sha1Run m q) := by
  have hinit : SameChain (sha1Init m r) (sha1Init m q) := ⟨rfl, rfl, rfl, rfl, rfl⟩
  have hmsg : (sha1Init m q).msg = (sha1Init m r).msg := rfl
  have h := hinit.sha1Blocks 0 (blocks64 ((sha1Init m r).msg.length / 64) (sha1Init m r).msg)
  simp only [digest, sha1Run, hmsg, h.h0, h.h1, h.h2, h.h3, h.h4]

/-! ### Two states that agree on what is known -/

/-- What an FDECS that waits in a phase has written of the working registers, the rest blanked: `State.settledWork` by the
phase alone. -/
def known : Phase → WorkRegs → WorkRegs
  | .fHdr, w => { WorkRegs.powerOn with cnt := w.cnt }
  | .fExt, w => { w with plen := 0, key := ⟨0, 0, 0, 0⟩, pay := [] }
  | .fKey, w => { w with key := ⟨0, 0, 0, 0⟩, pay := [] }
  | .fPay, w => { w with key := if w.mask then w.key else ⟨0, 0, 0, 0⟩, pay := [] }
  | .fPost, w => w
  | .idle, _ | .exec, _ => .powerOn

/-- Two states that agree on all but the SHA-1 registers and the working registers not known in phase `ph`. -/
structure AgreeAt (ph : Phase) (s t : State) : Prop where
  host : s.forgetWork = t.forgetWork
  work : known ph s.work = known ph t.work

/-- Two outcomes that agree on all but what nothing in flight has written. -/
def SameOutcome (o o' : Result) : Prop := mapNext State.settled o = mapNext State.settled o'

theorem eq_of_forgetWork {s t : State} (h : s.forgetWork = t.forgetWork) : t = { s with work := t.work, sha := t.sha } :=
  (congrArg (fun u : State => { u with work := t.work, sha := t.sha }) h :).symm

theorem settledWork_of_known {s : State} {w : WorkRegs} (sh : ShaRegs) (h : known s.phase s.work = known s.phase w) :
    s.settledWork = State.settledWork { s with work := w, sha := sh } := by
  unfold State.settledWork
  cases s.status.busy with
  | false => rfl
  | true =>
    rcases decodeCommand s.cmd with e | i
    · rfl
    · cases i with
      | fdecs =>
        cases hp : s.phase with
        | idle | exec => rfl
        | fHdr | fExt | fKey | fPay | fPost => rw [hp] at h; exact h
      | ldecs =>
        cases hp : s.phase with
        | fExt =>
          rw [hp] at h
          have hc : s.work.cnt = w.cnt := (congrArg WorkRegs.cnt h :)
          simp [hc]
        | idle | exec | fHdr | fKey | fPay | fPost => rfl
      | _ => rfl

theorem AgreeAt.settled {ph : Phase} {s t : State} (h : AgreeAt ph s t) (hp : s.phase = ph) : s.settled = t.settled := by
  subst hp
  rw [eq_of_forgetWork h.host]
  exact congrArg (fun w => ({ s with work := w, sha := .powerOn } : State)) (settledWork_of_known t.sha h.work)

theorem forgetWork_of_settled {s t : State} (h : s.settled = t.settled) : s.forgetWork = t.forgetWork :=
  (congrArg State.forgetWork h :)

/-- W_CNT is known in every phase that reads. -/
theorem AgreeAt.cnt {ph : Phase} {s t : State} (h : AgreeAt ph s t) (hp : ph ∈ [Phase.fHdr, .fExt, .fKey, .fPay]) :
    s.work.cnt = t.work.cnt := by
  simp only [List.mem_cons, List.not_mem_nil, or_false] at hp
  rcases hp with rfl | rfl | rfl | rfl <;> exact (congrArg WorkRegs.cnt h.work :)

/-- How many bytes a phase needs is known in it. -/
theorem AgreeAt.phaseNeed {ph : Phase} {s t : State} (h : AgreeAt ph s t) :
    phaseNeed ph s.work = phaseNeed ph t.work := by
  cases ph with
  | fExt =>
    have hl : s.work.len7 = t.work.len7 := (congrArg WorkRegs.len7 h.work :)
    simp [Machine.phaseNeed, hl]
  | fPay =>
    have hl : s.work.plen = t.work.plen := (congrArg WorkRegs.plen h.work :)
    simp [Machine.phaseNeed, hl]
  | idle | exec | fHdr | fKey | fPost => rfl

theorem known_addCount {ph : Phase} {w w' : WorkRegs} (h : known ph w = known ph w') (n : BitVec 64) :
    known ph { w with cnt := w.cnt + n } = known ph { w' with cnt := w'.cnt + n } := by
  cases ph with
  | idle | exec => rfl
  | fHdr | fExt | fKey | fPay | fPost => exact (congrArg (fun u : WorkRegs => { u with cnt := u.cnt + n }) h :)

theorem AgreeAt.countPulled {ph : Phase} {s t : State} (h : AgreeAt ph s t) (n : Nat) :
    AgreeAt ph (countPulled n s) (countPulled n t) :=
  ⟨h.host, known_addCount h.work _⟩

theorem AgreeAt.consumed {ph : Phase} {s t : State} (h : AgreeAt ph s t) (n : Nat) :
    AgreeAt ph (consumed n s) (consumed n t) :=
  ⟨(congrArg (fun u : State => { u with strm := u.strm.drop n, status := { u.status with hold := false } }) h.host :),
    known_addCount h.work _⟩

/-! ### The ends and the waits -/

theorem sameOutcome_completed {s t : State} (h : s.forgetWork = t.forgetWork) (r : ResRegs) :
    SameOutcome (.next (completed r s)) (.next (completed r t)) := by
  have e : (completed r s).forgetWork = (completed r t).forgetWork := congrArg (completed r) h
  exact congrArg Host.Outcome.next ((settled_idle rfl).trans (e.trans (settled_idle rfl).symm))

theorem sameOutcome_errored {s t : State} (h : s.forgetWork = t.forgetWork) (c : BitVec 4) :
    SameOutcome (.next (errored c s)) (.next (errored c t)) := by
  have e : (errored c s).forgetWork = (errored c t).forgetWork := congrArg (errored c) h
  exact congrArg Host.Outcome.next ((settled_idle rfl).trans (e.trans (settled_idle rfl).symm))

theorem sameOutcome_next {s t : State} (h : s.settled = t.settled) : SameOutcome (.next s) (.next t) :=
  congrArg Host.Outcome.next h

theorem AgreeAt.waiting {ph : Phase} {s t : State} (h : AgreeAt ph s t) (n : Nat) :
    SameOutcome (.next (waiting ph n s)) (.next (waiting ph n t)) := by
  have hw : AgreeAt ph (Machine.waiting ph n s) (Machine.waiting ph n t) :=
    ⟨(congrArg (Machine.waiting ph n) h.host :), h.work⟩
  exact sameOutcome_next (hw.settled rfl)

/-! ### Pulls -/

/-- A continuation that treats alike all states that agree on what is known in `ph`. -/
def Respects (ph : Phase) (k : State → Result) : Prop := ∀ s t, AgreeAt ph s t → SameOutcome (k s) (k t)

theorem sameOutcome_onBuffer {ph : Phase} {s t : State} (h : AgreeAt ph s t) (hc : s.work.cnt = t.work.cnt) (n : Nat)
    {k : Bytes → State → Result} (hk : ∀ bs, Respects ph (k bs)) : SameOutcome (onBuffer n s k) (onBuffer n t k) := by
  have hb : s.ops = t.ops := (congrArg State.ops h.host :)
  rcases onBuffer_cases n s k with ⟨hn, e⟩ | ⟨hn, e⟩ <;> rw [e]
  · rw [onBuffer_short k (by rwa [← hb, ← hc])]
    exact sameOutcome_errored h.host 1
  · rw [onBuffer_enough k (by rwa [← hb, ← hc]), ← hb, ← hc]
    exact hk _ _ _ (h.countPulled n)

theorem settled_hold {s t : State} (h : s.settled = t.settled) :
    State.settled { s with status := { s.status with hold := true } } =
      State.settled { t with status := { t.status with hold := true } } :=
  (congrArg (fun u : State => { u with status := { u.status with hold := true } }) h :)

theorem sameOutcome_onStream {ph : Phase} {s t : State} (hs : s.settled = t.settled) (h : AgreeAt ph s t) (n : Nat)
    {k : Bytes → State → Result} (hk : ∀ bs, Respects ph (k bs)) : SameOutcome (onStream n s k) (onStream n t k) := by
  have hb : s.strm = t.strm := (congrArg State.strm h.host :)
  rcases onStream_cases n s k with ⟨hn, e⟩ | ⟨hn, e⟩ <;> rw [e]
  · rw [onStream_short k (by rwa [← hb])]
    exact sameOutcome_next (settled_hold hs)
  · rw [onStream_enough k (by rwa [← hb]), ← hb]
    exact hk _ _ _ (h.consumed n)

/-! ### The phases of a frame decode -/

/-- F_POST reads the opcode, FIN, the length, the count and the payload. -/
theorem sameOutcome_finishFrame (txt : Bool) {s t : State} (h : AgreeAt .fPay s t) (hp : s.work.pay = t.work.pay) :
    SameOutcome (finishFrame txt s) (finishFrame txt t) := by
  have ho : s.work.opc = t.work.opc := (congrArg WorkRegs.opc h.work :)
  have hl : s.work.plen = t.work.plen := (congrArg WorkRegs.plen h.work :)
  have hf : s.work.fin = t.work.fin := (congrArg WorkRegs.fin h.work :)
  have hc : s.work.cnt = t.work.cnt := (congrArg WorkRegs.cnt h.work :)
  have hr : s.res = t.res := (congrArg State.res h.host :)
  unfold finishFrame
  rw [ho, hl, hp]
  rcases closeSplit t.work.opc t.work.plen t.work.pay with _ | ⟨code, split, pay⟩
  · exact sameOutcome_errored h.host 2
  · have hd : decodedResults s.work code split pay s.res = decodedResults t.work code split pay t.res := by
      simp [decodedResults, ho, hl, hf, hc, hr]
    cases hx : textRefused txt t.work.opc pay with
    | true =>
      simp only [hx, if_true]
      exact sameOutcome_errored h.host 4
    | false =>
      simp only [hx, hd]
      exact sameOutcome_completed h.host _

theorem respects_payPhase (txt : Bool) (raw : Bytes) : Respects .fPay (payPhase txt raw) := by
  intro s t h
  have hm : s.work.mask = t.work.mask := (congrArg WorkRegs.mask h.work :)
  have hk : (if s.work.mask then s.work.key else ⟨0, 0, 0, 0⟩) = (if t.work.mask then t.work.key else ⟨0, 0, 0, 0⟩) :=
    (congrArg WorkRegs.key h.work :)
  have hpay : (if s.work.mask then xorMask s.work.key raw else raw) =
      (if t.work.mask then xorMask t.work.key raw else raw) := by
    rw [hm] at hk ⊢
    cases hb : t.work.mask with
    | false => rfl
    | true =>
      rw [hb] at hk
      exact congrArg (xorMask · raw) hk
  exact sameOutcome_finishFrame txt ⟨h.host, h.work⟩ hpay

theorem respects_afterKey {next : Phase → State → Result} (hn : Respects .fPay (next .fPay)) (txt : Bool) :
    Respects .fPay (afterKey next txt) := by
  intro s t h
  have hl : s.work.plen = t.work.plen := (congrArg WorkRegs.plen h.work :)
  unfold afterKey
  rw [hl]
  split
  · exact sameOutcome_finishFrame txt ⟨h.host, h.work⟩ rfl
  · exact hn s t h

theorem respects_keyPhase {next : Phase → State → Result} (hn : Respects .fPay (next .fPay)) (txt : Bool) (bs : Bytes) :
    Respects .fKey (keyPhase next txt bs) := by
  intro s t h
  refine respects_afterKey hn txt _ _ ⟨h.host, ?_⟩
  exact (congrArg (fun u : WorkRegs => known .fPay { u with key := MaskKey.ofPulled bs }) h.work :)

theorem afterLength_fits {next : Phase → State → Result} {v : BitVec 64} {s : State} (txt : Bool)
    (h : ¬ s.maxPayload.val < v.toNat) : afterLength next txt v s =
      if s.work.mask then next .fKey { s with work := { s.work with plen := v } }
      else afterKey next txt { s with work := { s.work with plen := v } } :=
  if_neg h

theorem respects_afterLength {next : Phase → State → Result} (hk : Respects .fKey (next .fKey))
    (hp : Respects .fPay (next .fPay)) (txt : Bool) (v : BitVec 64) : Respects .fExt (afterLength next txt v) := by
  intro s t h
  have hx : s.maxPayload = t.maxPayload := (congrArg State.maxPayload h.host :)
  have hm : s.work.mask = t.work.mask := (congrArg WorkRegs.mask h.work :)
  have hw : known .fKey { s.work with plen := v } = known .fKey { t.work with plen := v } :=
    (congrArg (fun u : WorkRegs => { u with plen := v }) h.work :)
  by_cases hv : t.maxPayload.val < v.toNat
  · have es : afterLength next txt v s = .refused .payloadOverCapacity := if_pos (by rwa [hx])
    have et : afterLength next txt v t = .refused .payloadOverCapacity := if_pos hv
    rw [es, et]
    rfl
  · rw [afterLength_fits txt (by rwa [hx]), afterLength_fits txt hv]
    cases hb : t.work.mask with
    | true =>
      rw [if_pos (hm.trans hb), if_pos rfl]
      exact hk _ _ ⟨h.host, hw⟩
    | false =>
      rw [if_neg (by simp [hm, hb]), if_neg (by simp)]
      refine respects_afterKey hp txt _ _ ⟨h.host, ?_⟩
      simp only [known, hm, hb] at hw ⊢
      exact hw

theorem respects_extPhase {next : Phase → State → Result} (hk : Respects .fKey (next .fKey))
    (hp : Respects .fPay (next .fPay)) (txt : Bool) (ext : Bytes) : Respects .fExt (extPhase next txt ext) := by
  intro s t h
  have hl : s.work.len7 = t.work.len7 := (congrArg WorkRegs.len7 h.work :)
  unfold extPhase
  rw [hl]
  split
  · exact sameOutcome_errored h.host 2
  · exact respects_afterLength hk hp txt _ s t h

/-- F_HDR writes every field the later phases read but the length, the key and the payload. -/
theorem respects_headerPhase {next : Phase → State → Result} (hx : Respects .fExt (next .fExt))
    (hk : Respects .fKey (next .fKey)) (hp : Respects .fPay (next .fPay)) (txt : Bool) (f : HeaderFields)
    (hdr : BitVec 16) : Respects .fHdr fun s => headerPhase next txt f (latchHeader hdr s) := by
  intro s t h
  have hc : s.work.cnt = t.work.cnt := h.cnt (by decide)
  have ha : AgreeAt .fExt (headerLatched f (latchHeader hdr s)) (headerLatched f (latchHeader hdr t)) :=
    ⟨h.host, by simp [headerLatched, known, hc]⟩
  rcases headerPhase_cases next txt f (latchHeader hdr s) with ⟨hl, e⟩ | ⟨hl, e⟩
  · have e' : headerPhase next txt f (latchHeader hdr t) = _ := if_pos hl
    dsimp only
    rw [e, e']
    exact respects_afterLength hk hp txt _ _ _ ha
  · have e' : headerPhase next txt f (latchHeader hdr t) = _ := if_neg hl
    dsimp only
    rw [e, e']
    exact hx _ _ ha

/-! ### Buffer mode -/

theorem respects_bufferPay (txt : Bool) : Respects .fPay (bufferPay txt) := by
  intro s t h
  unfold bufferPay
  rw [h.phaseNeed]
  exact sameOutcome_onBuffer h (h.cnt (by decide)) _ (respects_payPhase txt)

theorem respects_bufferKey (txt : Bool) : Respects .fKey (bufferKey txt) := by
  intro s t h
  exact sameOutcome_onBuffer h (h.cnt (by decide)) _ (respects_keyPhase (respects_bufferPay txt) txt)

theorem respects_bufferExt (txt : Bool) : Respects .fExt (bufferExt txt) := by
  intro s t h
  unfold bufferExt
  rw [h.phaseNeed]
  exact sameOutcome_onBuffer h (h.cnt (by decide)) _
    (respects_extPhase (next := bufferAfterLength txt) (respects_bufferKey txt) (respects_bufferPay txt) txt)

theorem agreeAt_clearCount {s t : State} (h : s.forgetWork = t.forgetWork) :
    AgreeAt .fHdr (clearCount s) (clearCount t) :=
  ⟨h, rfl⟩

theorem sameOutcome_execFdecb (txt : Bool) {s t : State} (h : s.forgetWork = t.forgetWork) :
    SameOutcome (execFdecb txt s) (execFdecb txt t) :=
  sameOutcome_onBuffer (agreeAt_clearCount h) rfl 2 fun bs =>
    respects_headerPhase (next := bufferNext txt) (respects_bufferExt txt) (respects_bufferKey txt)
      (respects_bufferPay txt) txt (unpackHdr (headerOfBytes bs)) (headerOfBytes bs)

/-! ### Stream mode -/

theorem respects_streamNext (ph : Phase) : Respects ph (streamNext ph) := by
  intro s t h
  rw [streamNext_eq, streamNext_eq, h.phaseNeed]
  exact h.waiting _

theorem respects_streamHeader (txt : Bool) (f : HeaderFields) (hdr : BitVec 16) :
    Respects .fHdr fun s => headerPhase streamNext txt f (latchHeader hdr s) :=
  respects_headerPhase (respects_streamNext _) (respects_streamNext _) (respects_streamNext _) txt f hdr

theorem sameOutcome_execFdecs (txt : Bool) {s t : State} (h : AgreeAt s.phase s t) :
    SameOutcome (execFdecs txt s) (execFdecs txt t) := by
  have hs : s.settled = t.settled := h.settled rfl
  have hp : s.phase = t.phase := (congrArg State.phase h.host :)
  have hneed := h.phaseNeed
  unfold execFdecs
  rw [← hp]
  cases hph : s.phase with
  | idle | exec => exact (agreeAt_clearCount h.host).waiting 2
  | fHdr =>
    rw [hph] at h
    exact sameOutcome_onStream hs h 2 fun bs => respects_streamHeader txt _ (headerOfBytes bs)
  | fExt =>
    rw [hph] at h hneed
    dsimp only
    rw [hneed]
    exact sameOutcome_onStream hs h _ (respects_extPhase (respects_streamNext _) (respects_streamNext _) txt)
  | fKey =>
    rw [hph] at h
    exact sameOutcome_onStream hs h 4 (respects_keyPhase (respects_streamNext _) txt)
  | fPay =>
    rw [hph] at h hneed
    dsimp only
    rw [hneed]
    exact sameOutcome_onStream hs h _ (respects_payPhase txt)
  | fPost =>
    rw [hph] at h
    have hw : s.work = t.work := h.work
    exact sameOutcome_finishFrame txt ⟨h.host, by rw [hw]⟩ (by rw [hw])

/-! ### The length decode -/

theorem respects_finishLength (l : BitVec 7) (ext : Bytes) : Respects .fHdr (finishLength l ext) := by
  intro s t h
  have hc : s.work.cnt = t.work.cnt := h.cnt (by decide)
  have hr : s.res = t.res := (congrArg State.res h.host :)
  unfold finishLength
  split
  · exact sameOutcome_errored h.host 2
  · rw [hr, hc]
    exact sameOutcome_completed h.host _

theorem sameOutcome_execLdecb (l : BitVec 7) {s t : State} (h : s.forgetWork = t.forgetWork) :
    SameOutcome (execLdecb l s) (execLdecb l t) :=
  sameOutcome_onBuffer (agreeAt_clearCount h) rfl _ (respects_finishLength l)

/-! ### The commands -/

theorem sameOutcome_execAccept {s t : State} (h : s.forgetWork = t.forgetWork) :
    SameOutcome (execAccept s) (execAccept t) := by
  rw [eq_of_forgetWork h]
  unfold execAccept
  dsimp only
  split
  · rfl
  · rw [digest_sha1Run _ t.sha s.sha]
    refine sameOutcome_completed ?_ _
    rfl

/-- A draw reads no working register. -/
theorem draw4_congr {s t : State} (h : s.forgetWork = t.forgetWork) :
    (draw4 s).1 = (draw4 t).1 ∧ (draw4 s).2.forgetWork = (draw4 t).2.forgetWork := by
  have hk : s.keyDraws = t.keyDraws := (congrArg State.keyDraws h :)
  have hn : s.drawCount = t.drawCount := (congrArg State.drawCount h :)
  rcases hq : t.keyDraws with _ | ⟨k, ks⟩
  · rw [draw4_free (hk.trans hq), draw4_free hq]
    exact ⟨congrArg Config.maskKeySource hn,
      (congrArg (fun u : State => { u with drawCount := u.drawCount + 1 }) h :)⟩
  · rw [draw4_queued (hk.trans hq), draw4_queued hq]
    exact ⟨rfl, (congrArg (fun u : State => { u with keyDraws := ks }) h :)⟩

theorem sameOutcome_execFenc (opc : BitVec 4) (fin msk ksup : Bool) {s t : State} (h : s.forgetWork = t.forgetWork) :
    SameOutcome (execFenc opc fin msk ksup s) (execFenc opc fin msk ksup t) := by
  have ho : s.ops = t.ops := (congrArg State.ops h :)
  have hr : s.res = t.res := (congrArg State.res h :)
  obtain ⟨hkey, hdraw⟩ := draw4_congr h
  unfold execFenc
  rw [ho, hr]
  split
  · exact sameOutcome_errored h 2
  · cases msk with
    | false => exact sameOutcome_completed h _
    | true =>
      cases ksup with
      | false =>
        simp only [if_true, hkey]
        exact sameOutcome_completed hdraw _
      | true =>
        simp only [if_true]
        split
        · exact sameOutcome_errored h 3
        · exact sameOutcome_completed h _

/-- A command just issued reads no working register: those it uses it writes first. -/
theorem sameOutcome_exec_nonStream {i : Instr} (hn : nonStream i = true) {s t : State} (h : s.forgetWork = t.forgetWork) :
    SameOutcome (exec i s) (exec i t) := by
  have ho : s.ops = t.ops := (congrArg State.ops h :)
  have hr : s.res = t.res := (congrArg State.res h :)
  cases i with
  | henc fin opc msk l =>
    change SameOutcome (execHenc fin opc msk l s) (execHenc fin opc msk l t)
    rw [execHenc, execHenc, hr]
    exact sameOutcome_completed h _
  | hdec =>
    change SameOutcome (execHdec s) (execHdec t)
    rw [execHdec, execHdec, ho, hr]
    exact sameOutcome_completed h _
  | lenc =>
    change SameOutcome (execLenc s) (execLenc t)
    rw [execLenc, execLenc, ho, hr]
    split
    · exact sameOutcome_errored h 2
    · exact sameOutcome_completed h _
  | mask =>
    change SameOutcome (execMask s) (execMask t)
    rw [execMask, execMask, ho, hr]
    split
    · exact sameOutcome_errored h 3
    · exact sameOutcome_completed h _
  | utf8v =>
    change SameOutcome (execUtf8v s) (execUtf8v t)
    rw [execUtf8v, execUtf8v, ho, hr]
    split
    · exact sameOutcome_completed h _
    · exact sameOutcome_errored h 4
  | ldecb l => exact sameOutcome_execLdecb l h
  | fenc opc fin msk ksup => exact sameOutcome_execFenc opc fin msk ksup h
  | fdecb txt => exact sameOutcome_execFdecb txt h
  | accept => exact sameOutcome_execAccept h
  | _ => cases hn

/-! ### The step -/

theorem forgetWork_latch (p : PortCmd) {s t : State} (h : s.forgetWork = t.forgetWork) :
    (latch p s).forgetWork = (latch p t).forgetWork :=
  (congrArg (latch p) h :)

/-- For LDECS in F_EXT the count alone is written. -/
theorem settled_ldecs {s : State} {l : BitVec 7} (hb : s.status.busy = true) (hc : decodeCommand s.cmd = .ok (.ldecs l))
    (hp : s.phase = .fExt) :
    s.settled = { s.forgetWork with work := { WorkRegs.powerOn with cnt := s.work.cnt } } := by
  simp only [State.settled, State.settledWork, State.forgetWork, hb, if_true, hc, hp]

theorem settled_congr_ldecs {s t : State} {l : BitVec 7} (hb : s.status.busy = true)
    (hc : decodeCommand s.cmd = .ok (.ldecs l)) (hp : s.phase = .fExt) (h : s.forgetWork = t.forgetWork) :
    s.settled = t.settled ↔ s.work.cnt = t.work.cnt := by
  have hst : s.status = t.status := (congrArg State.status h :)
  have hcm : s.cmd = t.cmd := (congrArg State.cmd h :)
  have hph : s.phase = t.phase := (congrArg State.phase h :)
  rw [settled_ldecs hb hc hp, settled_ldecs (hst ▸ hb) (hcm ▸ hc) (hph ▸ hp), h]
  exact ⟨fun e => (congrArg (fun u : State => u.work.cnt) e :), fun e => by rw [e]⟩

theorem sameOutcome_runLatched {i : Instr} {p : PortCmd} (hd : decodeCommand p.cw = .ok i) {s t : State}
    (h : s.forgetWork = t.forgetWork) : SameOutcome (exec i (latch p s)) (exec i (latch p t)) := by
  have hl := forgetWork_latch p h
  rcases decodeCommand_kind hd with hn | ⟨l, rfl⟩ | ⟨x, rfl⟩
  · exact sameOutcome_exec_nonStream hn hl
  · have e : (waiting .fExt (extBytes l) (clearCount (latch p s))).forgetWork =
        (waiting .fExt (extBytes l) (clearCount (latch p t))).forgetWork :=
      (congrArg (waiting .fExt (extBytes l)) hl :)
    exact sameOutcome_next ((settled_congr_ldecs rfl hd rfl e).mpr rfl)
  · exact (agreeAt_clearCount hl).waiting 2

theorem sameOutcome_issueStep (p : PortCmd) {s t : State} (h : s.forgetWork = t.forgetWork) :
    SameOutcome (issueStep p s) (issueStep p t) := by
  have hm : s.maxPayload = t.maxPayload := (congrArg State.maxPayload h :)
  unfold issueStep
  rw [hm]
  split
  · unfold runIssued
    simp only [latch_cmd]
    split
    · next hd => exact sameOutcome_runLatched hd h
    · exact sameOutcome_errored (forgetWork_latch p h) 6
  · rfl

theorem sameOutcome_engineFrame (txt : Bool) {s t : State} (h : AgreeAt s.phase s t) :
    SameOutcome (engineFrame txt s) (engineFrame txt t) := by
  have hp : s.phase = t.phase := (congrArg State.phase h.host :)
  have hb : s.strm = t.strm := (congrArg State.strm h.host :)
  have hx := sameOutcome_execFdecs txt h
  unfold engineFrame fetchHeader fetchedHeader
  rw [← hp, ← hb]
  cases hph : s.phase with
  | idle | exec => rfl
  | fExt | fKey | fPay | fPost => exact hx
  | fHdr =>
    dsimp only
    split
    · exact hx
    · rw [hph] at h
      rw [exec_decodeHeader, exec_decodeHeader, pullStream_eq, pullStream_eq, latchHeader_cmd, latchHeader_cmd]
      have hc : s.cmd = t.cmd := (congrArg State.cmd h.host :)
      rw [consumed_cmd, consumed_cmd, hc]
      exact respects_streamHeader _ _ _ _ _ (h.consumed 2)

theorem sameOutcome_engineLength {l : BitVec 7} {s t : State} (hb : s.status.busy = true)
    (hc : decodeCommand s.cmd = .ok (.ldecs l)) (h : s.settled = t.settled) :
    SameOutcome (engineLength l s) (engineLength l t) := by
  have hp : s.phase = t.phase := (congrArg State.phase h :)
  unfold engineLength
  rw [← hp]
  cases hph : s.phase with
  | idle | exec | fHdr | fKey | fPay | fPost => rfl
  | fExt =>
    have hw : s.work.cnt = t.work.cnt := (settled_congr_ldecs hb hc hph (forgetWork_of_settled h)).mp h
    have ha : AgreeAt .fHdr s t := ⟨forgetWork_of_settled h, by simp [known, hw]⟩
    change SameOutcome (execLdecs l s) (execLdecs l t)
    rw [execLdecs_fExt hph, execLdecs_fExt (hp ▸ hph)]
    exact sameOutcome_onStream h ha _ (respects_finishLength l)

/-- For FDECS in flight, what is settled is what is known in its phase. -/
theorem agreeAt_of_settled {txt : Bool} {s t : State} (hb : s.status.busy = true)
    (hc : decodeCommand s.cmd = .ok (.fdecs txt)) (h : s.settled = t.settled) : AgreeAt s.phase s t := by
  refine ⟨forgetWork_of_settled h, ?_⟩
  have hst : s.status = t.status := (congrArg State.status h :)
  have hcm : s.cmd = t.cmd := (congrArg State.cmd h :)
  have hp : s.phase = t.phase := (congrArg State.phase h :)
  have hw : s.settledWork = t.settledWork := (congrArg State.work h :)
  unfold State.settledWork at hw
  rw [← hst, ← hcm, ← hp, if_pos hb, if_pos hb, hc] at hw
  cases hph : s.phase <;> rw [hph] at hw <;> exact hw

theorem sameOutcome_engineStep {s t : State} (h : s.settled = t.settled) : SameOutcome (engineStep s) (engineStep t) := by
  have hst : s.status = t.status := (congrArg State.status h :)
  have hcm : s.cmd = t.cmd := (congrArg State.cmd h :)
  cases hb : s.status.busy with
  | false =>
    rw [engineStep_idle hb, engineStep_idle (hst ▸ hb)]
    exact sameOutcome_next h
  | true =>
    unfold engineStep
    rw [← hst, ← hcm, if_pos hb, if_pos hb]
    split
    · next txt hc => exact sameOutcome_engineFrame txt (agreeAt_of_settled hb hc h)
    · next l hc => exact sameOutcome_engineLength hb hc h
    · rfl
    · rfl

theorem sameOutcome_step {s t : State} (h : s.settled = t.settled) : SameOutcome (step s) (step t) := by
  have hin : s.inputs = t.inputs := (congrArg State.inputs h :)
  have hrest (rest : List Input) : State.settled { s with inputs := rest } = State.settled { t with inputs := rest } :=
    (congrArg (fun u : State => { u with inputs := rest }) h :)
  rcases hi : s.inputs with _ | ⟨a, rest⟩ <;> have hi' := hin.symm.trans hi
  · rw [step_engine_empty hi, step_engine_empty hi']
    exact sameOutcome_engineStep h
  · cases a with
    | engine =>
      rw [step_engine hi, step_engine hi']
      exact sameOutcome_engineStep (hrest rest)
    | arrive bs =>
      rw [step_arrive hi, step_arrive hi']
      exact sameOutcome_next (congrArg (fun u : State => { u with strm := u.strm ++ bs, inputs := rest }) h :)
    | take n =>
      rw [step_take hi, step_take hi']
      exact sameOutcome_next (congrArg (fun u : State => { u with strm := u.strm.drop n, inputs := rest }) h :)
    | reset =>
      rw [step_reset hi, step_reset hi']
      refine sameOutcome_next ?_
      rw [settled_idle rfl, settled_idle rfl]
      exact (congrArg (fun u : State => { resetRegs u with inputs := rest }) (forgetWork_of_settled h) :)
    | issue p =>
      have hst : s.status = t.status := (congrArg State.status h :)
      cases hb : s.status.busy with
      | false =>
        rw [step_issue hi hb, step_issue hi' (hst ▸ hb)]
        exact sameOutcome_issueStep p (forgetWork_of_settled (hrest rest))
      | true =>
        rw [step_issue_busy hi hb, step_issue_busy hi' (hst ▸ hb)]
        exact sameOutcome_engineStep h

/-! ### Runs -/

theorem mapNext_forgetWork_settled (o : Result) :
    mapNext State.forgetWork (mapNext State.settled o) = mapNext State.forgetWork o := by
  cases o <;> rfl

theorem SameOutcome.cases {o o' : Result} (h : SameOutcome o o') :
    (∃ u v, o = .next u ∧ o' = .next v ∧ u.settled = v.settled) ∨ (∃ f, o = .fault f ∧ o' = .fault f) ∨
      (∃ r, o = .refused r ∧ o' = .refused r) := by
  cases o with
  | next u =>
    cases o' with
    | next v => injection h with h; exact .inl ⟨u, v, rfl, rfl, h⟩
    | fault | refused => cases h
  | fault f =>
    cases o' with
    | fault g => injection h with h; exact .inr (.inl ⟨f, rfl, by rw [h]⟩)
    | next | refused => cases h
  | refused r =>
    cases o' with
    | refused q => injection h with h; exact .inr (.inr ⟨r, rfl, by rw [h]⟩)
    | next | fault => cases h

theorem run_next {n : Nat} {s u : State} (h : step s = .next u) :
    Sys2Proof.core.run (n + 1) s = Sys2Proof.core.run n u := by
  have h' : Sys2Proof.core.step s = .next u := h
  simp only [Host.Core.run, h']

theorem run_fault {n : Nat} {s : State} {f : Fault} (h : step s = .fault f) :
    Sys2Proof.core.run (n + 1) s = .fault f := by
  have h' : Sys2Proof.core.step s = .fault f := h
  simp only [Host.Core.run, h']

theorem run_refused {n : Nat} {s : State} {r : Refusal} (h : step s = .refused r) :
    Sys2Proof.core.run (n + 1) s = .refused r := by
  have h' : Sys2Proof.core.step s = .refused r := h
  simp only [Host.Core.run, h']

theorem sameOutcome_run (n : Nat) {s t : State} (h : s.settled = t.settled) :
    SameOutcome (Sys2Proof.core.run n s) (Sys2Proof.core.run n t) := by
  induction n generalizing s t with
  | zero => exact sameOutcome_next h
  | succ n ih =>
    rcases (sameOutcome_step h).cases with ⟨u, v, hu, hv, huv⟩ | ⟨f, hu, hv⟩ | ⟨r, hu, hv⟩
    · rw [run_next hu, run_next hv]
      exact ih huv
    · rw [run_fault hu, run_fault hv]
      rfl
    · rw [run_refused hu, run_refused hv]
      rfl

/-- Settles O52: the step lemma, and its closure over runs from idle states, where nothing is settled. -/
theorem workingRegistersInvisible : Obligations.WorkingRegistersInvisible := by
  refine ⟨fun _ _ => sameOutcome_step, fun n s t hb h => ?_⟩
  have ht : t.status.busy = false := (congrArg (fun u : State => u.status.busy) h).symm.trans hb
  have hr : SameOutcome (Sys2Proof.core.run n s) (Sys2Proof.core.run n t) :=
    sameOutcome_run n (by rw [settled_idle hb, settled_idle ht, h])
  calc mapNext State.forgetWork (Sys2Proof.core.run n s)
      = mapNext State.forgetWork (mapNext State.settled (Sys2Proof.core.run n s)) := (mapNext_forgetWork_settled _).symm
    _ = mapNext State.forgetWork (mapNext State.settled (Sys2Proof.core.run n t)) := congrArg _ hr
    _ = mapNext State.forgetWork (Sys2Proof.core.run n t) := mapNext_forgetWork_settled _

end Sys2Proof.Machine
end

section
/-! PROOFS. The stream STRM (20_memory.md R36 to R39, R45): how it changes, what a hold does, and what the host reads while a
decode waits. -/

namespace Sys2Proof.Machine

/-! ### What the host reads -/

/-- The result registers are cleared while a command runs and after an error (10_state.md R24, R29). -/
theorem State.Inv.res_cleared {s : State} (h : s.Inv) (hs : s.status.busy = true ∨ s.status.err = true) :
    s.res = .cleared := by
  have hr := h.results
  rcases hs with hs | hs <;> simpa [resultsLegal, hs] using hr

/-- Settles O46: the step keeps the invariant, which says so of its results. -/
theorem noPartialResultsSeen : Obligations.NoPartialResultsSeen :=
  fun s t hs ht hbe => (stepKeepsInv s t hs ht).res_cleared hbe

/-! ### How STRM changes -/

/-- The engine consumes STRM at its head. -/
theorem engineStep_strm {s t : State} (h : engineStep s = .next t) : ∃ n, t.strm = s.strm.drop n := by
  rcases engineStep_cases s with ⟨-, e⟩ | ⟨-, ⟨txt, -, e⟩ | ⟨l, -, e⟩ | e⟩ <;> rw [e] at h
  · cases h; exact ⟨0, rfl⟩
  · exact (engineFrame_moves h).strm
  · obtain ⟨-, hx⟩ := engineLength_exec h
    obtain ⟨-, hstrm, -⟩ := execLdecs_keeps hx
    exact hstrm
  · cases h

theorem CommandEnds.strm {i : Instr} {s t : State} (h : CommandEnds i s t) : t.strm = s.strm := by
  cases h with
  | errors _ hs | completes _ hs =>
    obtain ⟨w, sh, ks, n, rfl, -⟩ := hs
    rfl

/-- An issue reads no stream byte. -/
theorem IssueMoves.strm {p : PortCmd} {s t : State} (h : IssueMoves p s t) : t.strm = s.strm := by
  cases h with
  | ends h => exact h.strm
  | illegal | fdecs | ldecs => rfl

/-- Settles O47, by the agent that moves. -/
theorem streamConsumedAtHeadOnly : Obligations.StreamConsumedAtHeadOnly := by
  intro s t h
  rcases hi : s.inputs with _ | ⟨a, rest⟩
  · rw [step_engine_empty hi] at h
    exact .inl (engineStep_strm h)
  · cases a with
    | engine => rw [step_engine hi] at h; exact .inl (engineStep_strm (s := { s with inputs := rest }) h)
    | arrive bs => rw [step_arrive hi] at h; cases h; exact .inr ⟨bs, rest, rfl, rfl⟩
    | take n => rw [step_take hi] at h; cases h; exact .inl ⟨n, rfl⟩
    | reset => rw [step_reset hi] at h; cases h; exact .inl ⟨0, rfl⟩
    | issue p =>
      cases hb : s.status.busy with
      | true => rw [step_issue_busy hi hb] at h; exact .inl (engineStep_strm h)
      | false =>
        rw [step_issue hi hb] at h
        exact .inl ⟨0, (issueStep_moves h).2.strm⟩

/-! ### A hold -/

/-- The state with HOLD = 1, the rest as it is: what a hold leaves (20_memory.md R38). -/
def held (s : State) : State := { s with status := { s.status with hold := true } }

@[simp] theorem held_phase (s : State) : (held s).phase = s.phase := rfl
@[simp] theorem held_cmd (s : State) : (held s).cmd = s.cmd := rfl
@[simp] theorem held_strm (s : State) : (held s).strm = s.strm := rfl
@[simp] theorem held_work (s : State) : (held s).work = s.work := rfl
@[simp] theorem held_busy (s : State) : (held s).status.busy = s.status.busy := rfl
@[simp] theorem held_inputs (s : State) : (held s).inputs = s.inputs := rfl

/-- A stream decode is in flight in a phase whose bytes are not all there (R37). -/
inductive Starved (s : State) : Prop
  | fdecs {txt : Bool} (hc : decodeCommand s.cmd = .ok (.fdecs txt)) (hp : s.phase ∈ [Phase.fHdr, .fExt, .fKey, .fPay])
      (hl : s.strm.length < phaseNeed s.phase s.work)
  | ldecs {len7 : BitVec 7} (hc : decodeCommand s.cmd = .ok (.ldecs len7)) (hp : s.phase = .fExt)
      (hl : s.strm.length < extBytes len7)

/-- A hold does not supply the bytes. -/
theorem Starved.held {s : State} (h : Starved s) : Starved (held s) := by
  cases h with
  | fdecs hc hp hl => exact .fdecs hc hp hl
  | ldecs hc hp hl => exact .ldecs hc hp hl

/-- Whether the bytes are there does not depend on what is scheduled. -/
theorem Starved.withInputs {s : State} (h : Starved s) (inp : List Input) : Starved { s with inputs := inp } := by
  cases h with
  | fdecs hc hp hl => exact .fdecs hc hp hl
  | ldecs hc hp hl => exact .ldecs hc hp hl

theorem execFdecs_short {s : State} (txt : Bool) (hp : s.phase ∈ [Phase.fHdr, .fExt, .fKey, .fPay])
    (hl : s.strm.length < phaseNeed s.phase s.work) : execFdecs txt s = .next (held s) := by
  simp only [List.mem_cons, List.not_mem_nil, or_false] at hp
  unfold execFdecs
  rcases hp with hp | hp | hp | hp <;> rw [hp] at hl ⊢ <;> exact onStream_short _ hl

/-- In F_HDR too the command's own meaning runs while bytes are missing. -/
theorem engineFrame_short {s : State} (txt : Bool) (hp : s.phase ∈ [Phase.fHdr, .fExt, .fKey, .fPay])
    (hl : s.strm.length < phaseNeed s.phase s.work) : engineFrame txt s = .next (held s) := by
  have hx : s.phase ∈ [Phase.fExt, .fKey, .fPay] ∨ (s.phase = .fHdr ∧ s.strm.length < 2) := by
    rcases List.mem_cons.mp hp with h | h
    · rw [h] at hl; exact .inr ⟨h, hl⟩
    · exact .inl h
  exact (engineFrame_exec hx).trans (execFdecs_short txt hp hl)

/-- The engine holds. -/
theorem engineStep_starved {s : State} (hb : s.status.busy = true) (h : Starved s) : engineStep s = .next (held s) := by
  cases h with
  | fdecs hc hp hl => rw [engineStep_fdecs hb hc, engineFrame_short _ hp hl]
  | ldecs hc hp hl =>
    rw [engineStep_ldecs hb hc, engineLength_fExt hp]
    exact (execLdecs_fExt hp _).trans (onStream_short _ hl)

/-- With nothing scheduled the step is the engine's, and it holds. -/
theorem step_starved {s : State} (hb : s.status.busy = true) (hi : s.inputs = []) (h : Starved s) :
    step s = .next (held s) :=
  (step_engine_empty hi).trans (engineStep_starved hb h)

/-- A state that steps to itself is kept by every run. -/
theorem runsTo_self {s : State} (h : step s = .next s) (n : Nat) : runsTo n s s := by
  induction n with
  | zero => rfl
  | succ n ih => exact (run_next h).trans ih

/-- One step reaches the held state, which is starved still and so steps to itself. -/
theorem runsTo_held {s : State} (hb : s.status.busy = true) (hi : s.inputs = []) (h : Starved s) (n : Nat) :
    runsTo (n + 1) s (held s) :=
  (run_next (step_starved hb hi h)).trans (runsTo_self (step_starved (s := held s) hb hi h.held) n)

/-- Settles O27: the held state is a fixed point of the step. -/
theorem streamHoldsForever : Obligations.StreamHoldsForever :=
  fun _ hb hi => ⟨fun _ n hc hp hl => runsTo_held hb hi (.fdecs hc hp hl) n,
    fun _ n hc hp hl => runsTo_held hb hi (.ldecs hc hp hl) n⟩

/-! ### The engine does not read HOLD -/

/-- A pull writes HOLD, whether it waits or goes on. -/
theorem onStream_held (n : Nat) (s : State) (k : Bytes → State → Result) : onStream n (held s) k = onStream n s k := by
  rcases onStream_cases n s k with ⟨hn, e⟩ | ⟨hn, e⟩ <;> rw [e]
  · exact onStream_short (s := held s) k hn
  · exact onStream_enough (s := held s) k hn

theorem execFdecs_held (txt : Bool) (s : State) : execFdecs txt (held s) = execFdecs txt s := by
  unfold execFdecs
  rw [held_phase]
  cases s.phase with
  | idle | exec | fPost => rfl
  | fHdr | fExt | fKey | fPay => exact onStream_held _ s _

theorem engineFrame_held (txt : Bool) (s : State) : engineFrame txt (held s) = engineFrame txt s := by
  have hx : exec (.fdecs txt) (held s) = exec (.fdecs txt) s := execFdecs_held txt s
  have hf : fetchHeader (held s) = fetchHeader s := rfl
  have hh : fetchedHeader (held s) = fetchedHeader s := rfl
  unfold engineFrame
  rw [held_phase, held_strm, hx, hf, hh]

theorem engineLength_held (len7 : BitVec 7) (s : State) : engineLength len7 (held s) = engineLength len7 s := by
  unfold engineLength
  rw [held_phase]
  cases h : s.phase with
  | idle | exec | fHdr | fKey | fPay | fPost => rfl
  | fExt =>
    calc execLdecs len7 (held s)
        = onStream (extBytes len7) (held s) (finishLength len7) := execLdecs_fExt (s := held s) h len7
      _ = onStream (extBytes len7) s (finishLength len7) := onStream_held _ s _
      _ = execLdecs len7 s := (execLdecs_fExt h len7).symm

/-- With a command in flight the engine moves alike whether or not it has held. -/
theorem engineStep_held {s : State} (hb : s.status.busy = true) : engineStep (held s) = engineStep s := by
  unfold engineStep
  rw [held_busy, held_cmd, if_pos hb, if_pos hb]
  split
  · exact engineFrame_held _ s
  · exact engineLength_held _ s
  · rfl
  · rfl

theorem run_congr {n : Nat} {s t : State} (h : step s = step t) :
    Sys2Proof.core.run (n + 1) s = Sys2Proof.core.run (n + 1) t := by
  have h' : Sys2Proof.core.step s = Sys2Proof.core.step t := h
  simp only [Host.Core.run, h']

/-- A scheduled arrival puts its bytes at the tail of STRM. -/
theorem run_arrive (n : Nat) (bs : Bytes) (rest : List Input) (s : State) :
    Sys2Proof.core.run (n + 1) { s with inputs := .arrive bs :: rest } =
      Sys2Proof.core.run n { arriveBytes bs s with inputs := rest } :=
  run_next (step_arrive rfl)

/-- A scheduled engine move that holds. -/
theorem run_engine_starved {s : State} (n : Nat) (rest : List Input) (hb : s.status.busy = true) (h : Starved s) :
    Sys2Proof.core.run (n + 1) { s with inputs := .engine :: rest } =
      Sys2Proof.core.run n { held s with inputs := rest } :=
  run_next ((step_engine rfl).trans (engineStep_starved (s := { s with inputs := rest }) hb (h.withInputs rest)))

/-- A scheduled engine move leaves no trace of an earlier hold. -/
theorem run_engine_held {s : State} (n : Nat) (rest : List Input) (hb : s.status.busy = true) :
    Sys2Proof.core.run (n + 1) { held s with inputs := .engine :: rest } =
      Sys2Proof.core.run (n + 1) { s with inputs := .engine :: rest } := by
  have hmove (u : State) : step { u with inputs := .engine :: rest } = engineStep { u with inputs := rest } :=
    step_engine rfl
  have heng : engineStep { held s with inputs := rest } = engineStep { s with inputs := rest } :=
    engineStep_held (s := { s with inputs := rest }) hb
  exact run_congr (by rw [hmove, hmove, heng])

theorem arriveBytes_append (a b : Bytes) (s : State) : arriveBytes b (arriveBytes a s) = arriveBytes (a ++ b) s := by
  simp [arriveBytes]

/-- The first piece leaves the engine holding, and the hold leaves no trace in the engine's next move (R38, R39). -/
theorem run_two_pieces {s : State} {a : Bytes} (b : Bytes) (hb : s.status.busy = true) (h : Starved (arriveBytes a s)) :
    Sys2Proof.core.run 4 { s with inputs := [.arrive a, .engine, .arrive b, .engine] } =
      Sys2Proof.core.run 2 { s with inputs := [.arrive (a ++ b), .engine] } := by
  calc Sys2Proof.core.run 4 { s with inputs := [.arrive a, .engine, .arrive b, .engine] }
      = Sys2Proof.core.run 3 { arriveBytes a s with inputs := [.engine, .arrive b, .engine] } := run_arrive 3 a _ s
    _ = Sys2Proof.core.run 2 { held (arriveBytes a s) with inputs := [.arrive b, .engine] } :=
        run_engine_starved 2 _ hb h
    _ = Sys2Proof.core.run 1 { held (arriveBytes b (arriveBytes a s)) with inputs := [.engine] } := run_arrive 1 b _ _
    _ = Sys2Proof.core.run 1 { arriveBytes b (arriveBytes a s) with inputs := [.engine] } := run_engine_held 0 [] hb
    _ = Sys2Proof.core.run 1 { arriveBytes (a ++ b) s with inputs := [.engine] } := by rw [arriveBytes_append]
    _ = Sys2Proof.core.run 2 { s with inputs := [.arrive (a ++ b), .engine] } := (run_arrive 1 (a ++ b) _ s).symm

/-- Settles O28: either command is starved after the first piece. -/
theorem arrivalGranularityInvisible : Obligations.ArrivalGranularityInvisible := by
  intro a b s hb h
  refine run_two_pieces b hb ?_
  rcases h with ⟨txt, hc, hp, hl⟩ | ⟨l, hc, hp, hl⟩
  · exact .fdecs hc hp hl
  · exact .ldecs hc hp hl

end Sys2Proof.Machine
end

section
/-! PROOFS. The encodings of 30_encoding.md: the fields of a command word and of a base header, the words each row of R60
hits, and that decoding and encoding are inverse. -/

namespace Sys2Proof

open Sys2Proof.Machine

/-! ### The fields of a command word (R59) -/

/-- A command word taken apart into its fields, the unused bits 31:20 first. -/
structure CommandFields where
  unused : BitVec 12
  srcm : Bool
  len7 : BitVec 7
  txt : Bool
  ksup : Bool
  msk : Bool
  fin : Bool
  opc : BitVec 4
  code : BitVec 4

/-- Bits 31:20. -/
def cmdUnused (w : BitVec 32) : BitVec 12 := w.extractLsb' 20 12

def commandFields (w : BitVec 32) : CommandFields :=
  ⟨cmdUnused w, cmdSrcm w, cmdLen7 w, cmdTxt w, cmdKsup w, cmdMsk w, cmdFin w, cmdOpc w, cmdCode w⟩

/-- A command word has no bit outside its fields. -/
theorem commandFields_inj {w v : BitVec 32} : commandFields w = commandFields v ↔ w = v := by
  refine ⟨fun h => BitVec.eq_of_getLsbD_eq fun i hi => ?_, congrArg _⟩
  obtain ⟨hu, hs, hl, ht, hk, hm, hf, ho, hc⟩ := CommandFields.mk.inj h
  have hu := congrArg (·.getLsbD (i - 20)) hu
  have hl := congrArg (·.getLsbD (i - 12)) hl
  have ho := congrArg (·.getLsbD (i - 4)) ho
  have hc := congrArg (·.getLsbD i) hc
  simp only [cmdUnused, cmdSrcm, cmdLen7, cmdTxt, cmdKsup, cmdMsk, cmdFin, cmdOpc, cmdCode, BitVec.getLsbD_extractLsb'] at *
  interval_cases i <;> simp_all

theorem commandFields_and (w m : BitVec 32) : commandFields (w &&& m) =
    let f := commandFields w
    let g := commandFields m
    ⟨f.unused &&& g.unused, f.srcm && g.srcm, f.len7 &&& g.len7, f.txt && g.txt, f.ksup && g.ksup, f.msk && g.msk,
      f.fin && g.fin, f.opc &&& g.opc, f.code &&& g.code⟩ := by
  simp [commandFields, cmdUnused, cmdSrcm, cmdLen7, cmdTxt, cmdKsup, cmdMsk, cmdFin, cmdOpc, cmdCode, BitVec.extractLsb'_and]

section
variable (srcm : Bool) (len7 : BitVec 7) (txt ksup msk fin : Bool) (opc code : BitVec 4)

theorem commandFields_commandWord : commandFields (commandWord srcm len7 txt ksup msk fin opc code) =
    ⟨0, srcm, len7, txt, ksup, msk, fin, opc, code⟩ := by
  unfold commandFields commandWord cmdUnused cmdSrcm cmdLen7 cmdTxt cmdKsup cmdMsk cmdFin cmdOpc cmdCode
  congr 1
  case e_code => exact BitVec.extractLsb'_append_eq_right
  case e_opc =>
    rw [BitVec.extractLsb'_append_eq_of_le (by decide)]
    exact BitVec.extractLsb'_append_eq_right
  case e_len7 =>
    iterate 6 rw [BitVec.extractLsb'_append_eq_of_le (by decide)]
    exact BitVec.extractLsb'_append_eq_right
  case e_unused =>
    iterate 8 rw [BitVec.extractLsb'_append_eq_of_le (by decide)]
    simp
  case e_srcm | e_txt | e_ksup | e_msk | e_fin =>
    iterate 8 rw [BitVec.getLsbD_append]
    simp

@[simp] theorem cmdLen7_commandWord : cmdLen7 (commandWord srcm len7 txt ksup msk fin opc code) = len7 :=
  congrArg CommandFields.len7 (commandFields_commandWord ..)
@[simp] theorem cmdTxt_commandWord : cmdTxt (commandWord srcm len7 txt ksup msk fin opc code) = txt :=
  congrArg CommandFields.txt (commandFields_commandWord ..)
@[simp] theorem cmdKsup_commandWord : cmdKsup (commandWord srcm len7 txt ksup msk fin opc code) = ksup :=
  congrArg CommandFields.ksup (commandFields_commandWord ..)
@[simp] theorem cmdMsk_commandWord : cmdMsk (commandWord srcm len7 txt ksup msk fin opc code) = msk :=
  congrArg CommandFields.msk (commandFields_commandWord ..)
@[simp] theorem cmdFin_commandWord : cmdFin (commandWord srcm len7 txt ksup msk fin opc code) = fin :=
  congrArg CommandFields.fin (commandFields_commandWord ..)
@[simp] theorem cmdOpc_commandWord : cmdOpc (commandWord srcm len7 txt ksup msk fin opc code) = opc :=
  congrArg CommandFields.opc (commandFields_commandWord ..)

end

@[simp] theorem commandWord_inj {s s' t t' k k' m m' f f' : Bool} {l l' : BitVec 7} {o o' c c' : BitVec 4} :
    commandWord s l t k m f o c = commandWord s' l' t' k' m' f' o' c' ↔
      s = s' ∧ l = l' ∧ t = t' ∧ k = k' ∧ m = m' ∧ f = f' ∧ o = o' ∧ c = c' := by
  rw [← commandFields_inj, commandFields_commandWord, commandFields_commandWord, CommandFields.mk.injEq]
  simp

/-! ### The rows of R60: each hits the command words whose other fields are free -/

@[simp] theorem and_full4 (x : BitVec 4) : x &&& 15#4 = x := BitVec.and_allOnes
@[simp] theorem and_full7 (x : BitVec 7) : x &&& 127#7 = x := BitVec.and_allOnes
@[simp] theorem and_full12 (x : BitVec 12) : x &&& 4095#12 = x := BitVec.and_allOnes

section
variable {w : BitVec 32}

/-- A row hits a word when it agrees with the row's pattern field by field, under the row's mask. -/
theorem CommandRow.hits_iff {r : CommandRow} : r.hits w = true ↔
    cmdUnused w &&& r.mask.extractLsb' 20 12 = r.pattern.extractLsb' 20 12 ∧
      (cmdSrcm w && r.mask.getLsbD 19) = r.pattern.getLsbD 19 ∧
      cmdLen7 w &&& r.mask.extractLsb' 12 7 = r.pattern.extractLsb' 12 7 ∧
      (cmdTxt w && r.mask.getLsbD 11) = r.pattern.getLsbD 11 ∧ (cmdKsup w && r.mask.getLsbD 10) = r.pattern.getLsbD 10 ∧
      (cmdMsk w && r.mask.getLsbD 9) = r.pattern.getLsbD 9 ∧ (cmdFin w && r.mask.getLsbD 8) = r.pattern.getLsbD 8 ∧
      cmdOpc w &&& r.mask.extractLsb' 4 4 = r.pattern.extractLsb' 4 4 ∧
      cmdCode w &&& r.mask.extractLsb' 0 4 = r.pattern.extractLsb' 0 4 := by
  rw [CommandRow.hits, beq_iff_eq, ← commandFields_inj, commandFields_and]
  exact Iff.of_eq (CommandFields.mk.injEq ..)

theorem eq_commandWord_iff {s t k m f : Bool} {l : BitVec 7} {o c : BitVec 4} : w = commandWord s l t k m f o c ↔
    cmdUnused w = 0 ∧ cmdSrcm w = s ∧ cmdLen7 w = l ∧ cmdTxt w = t ∧ cmdKsup w = k ∧ cmdMsk w = m ∧ cmdFin w = f ∧
      cmdOpc w = o ∧ cmdCode w = c := by
  rw [← commandFields_inj, commandFields_commandWord]
  exact Iff.of_eq (CommandFields.mk.injEq ..)

theorem rowHenc_hits : rowHenc.hits w = true ↔
    w = commandWord false (cmdLen7 w) false false (cmdMsk w) (cmdFin w) (cmdOpc w) 0x1 := by
  simp [CommandRow.hits_iff, eq_commandWord_iff, rowHenc]

theorem rowHdec_hits : rowHdec.hits w = true ↔ w = commandWord false 0 false false false false 0 0x2 := by
  simp [CommandRow.hits_iff, eq_commandWord_iff, rowHdec]

theorem rowLenc_hits : rowLenc.hits w = true ↔ w = commandWord false 0 false false false false 0 0x3 := by
  simp [CommandRow.hits_iff, eq_commandWord_iff, rowLenc]

theorem rowLdecb_hits : rowLdecb.hits w = true ↔ w = commandWord false (cmdLen7 w) false false false false 0 0x4 := by
  simp [CommandRow.hits_iff, eq_commandWord_iff, rowLdecb]

theorem rowLdecs_hits : rowLdecs.hits w = true ↔ w = commandWord true (cmdLen7 w) false false false false 0 0x4 := by
  simp [CommandRow.hits_iff, eq_commandWord_iff, rowLdecs]

theorem rowMask_hits : rowMask.hits w = true ↔ w = commandWord false 0 false false false false 0 0x5 := by
  simp [CommandRow.hits_iff, eq_commandWord_iff, rowMask]

theorem rowFenc_hits : rowFenc.hits w = true ↔
    w = commandWord false 0 false (cmdKsup w) (cmdMsk w) (cmdFin w) (cmdOpc w) 0x6 := by
  simp [CommandRow.hits_iff, eq_commandWord_iff, rowFenc]

theorem rowFdecb_hits : rowFdecb.hits w = true ↔ w = commandWord false 0 (cmdTxt w) false false false 0 0x7 := by
  simp [CommandRow.hits_iff, eq_commandWord_iff, rowFdecb]

theorem rowFdecs_hits : rowFdecs.hits w = true ↔ w = commandWord true 0 (cmdTxt w) false false false 0 0x7 := by
  simp [CommandRow.hits_iff, eq_commandWord_iff, rowFdecs]

theorem rowUtf8v_hits : rowUtf8v.hits w = true ↔ w = commandWord false 0 false false false false 0 0x8 := by
  simp [CommandRow.hits_iff, eq_commandWord_iff, rowUtf8v]

theorem rowAccept_hits : rowAccept.hits w = true ↔ w = commandWord false 0 false false false false 0 0x9 := by
  simp [CommandRow.hits_iff, eq_commandWord_iff, rowAccept]

end

/-! ### Decoding and encoding a command word -/

/-- What `decodeCommand` answers, said of the word: a well-formed command whose word it is, or a rejection, when no row hits
or the word is the FENC of R61. -/
def DecodesTo (w : BitVec 32) : Except Reject Instr → Prop
  | .ok i => .command w = encode i ∧ WellFormed i = true
  | .error _ =>
    (∀ r ∈ commandRows, r.hits w = false) ∨ (rowFenc.hits w = true ∧ keyFieldsLegal (cmdMsk w) (cmdKsup w) = false)

theorem decodeCommand_decodesTo (w : BitVec 32) : DecodesTo w (decodeCommand w) := by
  unfold decodeCommand
  refine iteInduction (fun h => ⟨congrArg _ (rowHenc_hits.mp h), rfl⟩) fun henc => ?_
  refine iteInduction (fun h => ⟨congrArg _ (rowHdec_hits.mp h), rfl⟩) fun hdec => ?_
  refine iteInduction (fun h => ⟨congrArg _ (rowLenc_hits.mp h), rfl⟩) fun lenc => ?_
  refine iteInduction (fun h => ⟨congrArg _ (rowLdecb_hits.mp h), rfl⟩) fun ldecb => ?_
  refine iteInduction (fun h => ⟨congrArg _ (rowLdecs_hits.mp h), rfl⟩) fun ldecs => ?_
  refine iteInduction (fun h => ⟨congrArg _ (rowMask_hits.mp h), rfl⟩) fun mask => ?_
  refine iteInduction (fun h => iteInduction (fun hl => ⟨congrArg _ (rowFenc_hits.mp h), hl⟩)
    fun hl => .inr ⟨h, Bool.eq_false_of_not_eq_true hl⟩) fun fenc => ?_
  refine iteInduction (fun h => ⟨congrArg _ (rowFdecb_hits.mp h), rfl⟩) fun fdecb => ?_
  refine iteInduction (fun h => ⟨congrArg _ (rowFdecs_hits.mp h), rfl⟩) fun fdecs => ?_
  refine iteInduction (fun h => ⟨congrArg _ (rowUtf8v_hits.mp h), rfl⟩) fun utf8v => ?_
  refine iteInduction (fun h => ⟨congrArg _ (rowAccept_hits.mp h), rfl⟩) fun accept => ?_
  have miss : ∀ r ∈ commandRows, r.hits w = false := by
    simp [commandRows, henc, hdec, lenc, ldecb, ldecs, mask, fenc, fdecb, fdecs, utf8v, accept]
  exact iteInduction (fun _ => .inl miss) fun _ => .inl miss

/-- The word of an FENC, legal or not (R61): no row before its own hits it. -/
theorem decodeCommand_fencWord (opc : BitVec 4) (fin msk ksup : Bool) :
    decodeCommand (commandWord false 0 false ksup msk fin opc 0x6) =
      if keyFieldsLegal msk ksup then .ok (.fenc opc fin msk ksup) else .error .keyWithoutMask := by
  simp [decodeCommand, rowHenc_hits, rowHdec_hits, rowLenc_hits, rowLdecb_hits, rowLdecs_hits, rowMask_hits, rowFenc_hits]

/-! ### Base headers (R52, R56) -/

theorem unpackHdr_headerWord (fin : Bool) (rsv : BitVec 3) (opc : BitVec 4) (msk : Bool) (len7 : BitVec 7) :
    unpackHdr (headerWord fin rsv opc msk len7) = ⟨fin, rsv, opc, msk, len7⟩ := by
  unfold unpackHdr headerWord
  congr 1
  case e_len7 => exact BitVec.extractLsb'_append_eq_right
  case e_opc =>
    iterate 2 rw [BitVec.extractLsb'_append_eq_of_le (by decide)]
    exact BitVec.extractLsb'_append_eq_right
  case e_rsv =>
    iterate 3 rw [BitVec.extractLsb'_append_eq_of_le (by decide)]
    exact BitVec.extractLsb'_append_eq_right
  case e_fin | e_mask =>
    iterate 4 rw [BitVec.getLsbD_append]
    simp

/-- A base header has no bit outside its fields. -/
theorem unpackHdr_inj {h k : BitVec 16} (e : unpackHdr h = unpackHdr k) : h = k := by
  refine BitVec.eq_of_getLsbD_eq fun i hi => ?_
  obtain ⟨hf, hr, ho, hm, hl⟩ := HeaderFields.mk.inj e
  have hr := congrArg (·.getLsbD (i - 12)) hr
  have ho := congrArg (·.getLsbD (i - 8)) ho
  have hl := congrArg (·.getLsbD i) hl
  simp only [BitVec.getLsbD_extractLsb'] at *
  interval_cases i <;> simp_all

theorem headerWord_unpackHdr (h : BitVec 16) :
    headerWord (unpackHdr h).fin (unpackHdr h).rsv (unpackHdr h).opc (unpackHdr h).mask (unpackHdr h).len7 = h :=
  unpackHdr_inj (unpackHdr_headerWord ..)

/-- The row of a frame opcode has that opcode in its word. -/
theorem encode_headerInstr (opc : BitVec 4) (fin : Bool) (rsv : BitVec 3) (msk : Bool) (len7 : BitVec 7) :
    encode (headerInstr opc fin rsv msk len7) = .header (headerWord fin rsv opc msk len7) := by
  obtain ⟨⟨n, hn⟩⟩ := opc
  interval_cases n <;> rfl

theorem wellFormed_headerInstr (opc : BitVec 4) (fin : Bool) (rsv : BitVec 3) (msk : Bool) (len7 : BitVec 7) :
    WellFormed (headerInstr opc fin rsv msk len7) = true := by
  obtain ⟨⟨n, hn⟩⟩ := opc
  interval_cases n <;> rfl

theorem decode_headerWord (fin : Bool) (rsv : BitVec 3) (opc : BitVec 4) (msk : Bool) (len7 : BitVec 7) :
    decode (.header (headerWord fin rsv opc msk len7)) = .ok (headerInstr opc fin rsv msk len7) := by
  simp only [decode, decodeHeader, unpackHdr_headerWord]

/-! ### Both encodings -/

/-- Settles O1: of the rows only the command's own hits its word, and a base header's fields come back from its word. -/
theorem decodeEncodeAgree : Obligations.DecodeEncodeAgree := by
  intro i h
  cases i with
  | fenc opc fin msk ksup => exact (decodeCommand_fencWord opc fin msk ksup).trans (if_pos h)
  | henc | hdec | lenc | ldecb | ldecs | mask | fdecb | fdecs | utf8v | accept =>
    simp [decode, encode, decodeCommand, rowHenc_hits, rowHdec_hits, rowLenc_hits, rowLdecb_hits, rowLdecs_hits,
      rowMask_hits, rowFenc_hits, rowFdecb_hits, rowFdecs_hits, rowUtf8v_hits, rowAccept_hits]
  | _ => exact decode_headerWord _ _ _ _ _

/-- Settles O2: the row that hits a command word fixes every bit its command does not use, and a base header has no bit
outside its fields. -/
theorem decodedWordIsItsEncoding : Obligations.DecodedWordIsItsEncoding := by
  rintro (w | h) i hd
  · have hw := decodeCommand_decodesTo w
    rw [show decodeCommand w = .ok i from hd] at hw
    obtain ⟨he, hwf⟩ := hw
    exact ⟨he.symm, hwf⟩
  · cases hd
    exact ⟨(encode_headerInstr ..).trans (congrArg _ (headerWord_unpackHdr h)), wellFormed_headerInstr ..⟩

/-! ### Illegal command words (R62) -/

theorem CommandRow.hits_eq_false {r : CommandRow} {w : BitVec 32} : r.hits w = false ↔ w &&& r.mask ≠ r.pattern :=
  beq_eq_false_iff_ne

theorem keyFieldsLegal_eq_false {msk ksup : Bool} : keyFieldsLegal msk ksup = false ↔ ksup = true ∧ msk = false := by
  cases msk <;> cases ksup <;> decide

/-- Every row fixes CODE, at one of 1 to 9. -/
theorem misses_of_codeReserved {w : BitVec 32} (hc : codeReserved (cmdCode w) = true) :
    ∀ r ∈ commandRows, w &&& r.mask ≠ r.pattern := by
  intro r hr h
  have rows : ∀ r ∈ commandRows, cmdCode r.mask = 15#4 ∧ codeReserved (cmdCode r.pattern) = false := by decide
  obtain ⟨hm, hp⟩ := rows r hr
  have hcode : cmdCode w = cmdCode r.pattern := by
    rw [← h, ← and_full4 (cmdCode w), ← hm]
    exact BitVec.extractLsb'_and.symm
  rw [hcode, hp] at hc
  cases hc

theorem decodeCommand_error_of_misses {w : BitVec 32} (h : ∀ r ∈ commandRows, w &&& r.mask ≠ r.pattern) :
    ∃ e, decodeCommand w = .error e := by
  simp only [← CommandRow.hits_eq_false, commandRows, List.forall_mem_cons] at h
  simp only [decodeCommand, h, Bool.false_eq_true, if_false]
  split
  · exact ⟨_, rfl⟩
  · exact ⟨_, rfl⟩

/-- Which words are rejected (R62). -/
theorem decodeCommand_error_iff (w : BitVec 32) : (∃ e, decodeCommand w = .error e) ↔
    (cmdCode w = 0 ∨ 10 ≤ (cmdCode w).toNat ∨ (∀ r ∈ commandRows, w &&& r.mask ≠ r.pattern) ∨
      (w &&& 0xFFFFF80F = 0x00000006 ∧ cmdKsup w = true ∧ cmdMsk w = false)) := by
  constructor
  · rintro ⟨e, he⟩
    have hw := decodeCommand_decodesTo w
    rw [he] at hw
    rcases hw with hw | ⟨hf, hk⟩
    · exact .inr (.inr (.inl fun r hr => CommandRow.hits_eq_false.mp (hw r hr)))
    · exact .inr (.inr (.inr ⟨beq_iff_eq.mp hf, keyFieldsLegal_eq_false.mp hk⟩))
  · rintro (h | h | h | ⟨h, hk⟩)
    · exact decodeCommand_error_of_misses (misses_of_codeReserved (by simp [codeReserved, h]))
    · exact decodeCommand_error_of_misses (misses_of_codeReserved (by simp [codeReserved, h]))
    · exact decodeCommand_error_of_misses h
    · refine ⟨.keyWithoutMask, ?_⟩
      rw [rowFenc_hits.mp (beq_iff_eq.mpr h), decodeCommand_fencWord, keyFieldsLegal_eq_false.mpr hk]
      rfl

/-- Settles O3: the rejected words are those no row gives a meaning, and the issue of one is the latch and the error exit. -/
theorem illegalCommandWords : Obligations.IllegalCommandWords := by
  refine ⟨decodeCommand_error_iff, fun s p rest e hb hi hf hd => ?_⟩
  rw [step_issue hi hb, issueStep, if_pos hf, runIssued, latch_cmd, hd]
  rfl

/-- Settles O4: each word is the encoding of a well-formed command. -/
theorem workedWordsDecode : Obligations.WorkedWordsDecode := by
  have hkey : commandWord false 0 false true true true 1 0x6 = 0x716 := by decide
  exact ⟨⟨rfl, decodeEncodeAgree (.henc true 1 false 5) rfl⟩,
    ⟨fun _ _ => hkey, decodeEncodeAgree (.fenc 1 true true true) rfl⟩,
    ⟨fun _ => rfl, decodeEncodeAgree (.fenc 8 true false false) rfl⟩,
    ⟨fun _ => rfl, decodeEncodeAgree (.fdecb false) rfl⟩, ⟨fun _ => rfl, decodeEncodeAgree (.fdecb true) rfl⟩,
    ⟨rfl, decodeEncodeAgree (.fdecs false) rfl⟩, ⟨rfl, decodeEncodeAgree (.ldecs 126) rfl⟩,
    ⟨fun _ => rfl, decodeEncodeAgree .accept rfl⟩⟩

end Sys2Proof
end

section
/-! PROOFS. Extended lengths (30_encoding.md R53, R54; 41_length_codec.md R72): big-endian numbers and their bytes, the one
legal pair of slot and extension of each length, and what every length decoder does with the other pairs. -/

namespace Sys2Proof

/-! ### Big-endian numbers -/

theorem frombe_cons (b : Byte) (s : Bytes) : frombe (b :: s) = b.toNat * 256 ^ s.length + frombe s := by
  induction s using List.reverseRecOn with
  | nil => simp [frombe]
  | append_singleton s c ih =>
    rw [← List.cons_append, frombe_append_one, frombe_append_one, ih, List.length_append, List.length_singleton]
    ring

/-- Byte sequences of one length are told apart by their numbers. -/
theorem frombe_inj {s t : Bytes} (hl : s.length = t.length) (h : frombe s = frombe t) : s = t := by
  induction s generalizing t with
  | nil => exact (List.length_eq_zero_iff.mp hl.symm).symm
  | cons b s ih =>
    obtain _ | ⟨c, t⟩ := t
    · cases hl
    · have hl : s.length = t.length := Nat.succ.inj hl
      have hs := frombe_lt s
      have ht := frombe_lt t
      rw [frombe_cons, frombe_cons, hl] at h
      rw [hl] at hs
      have hb : b.toNat = c.toNat := by
        have hd := congrArg (· / 256 ^ t.length) h
        simpa [Nat.mul_comm _ (256 ^ t.length), Nat.mul_add_div, Nat.div_eq_of_lt hs, Nat.div_eq_of_lt ht] using hd
      rw [hb] at h
      rw [BitVec.eq_of_toNat_eq hb, ih hl (Nat.add_left_cancel h)]

namespace Machine

theorem frombe_beBytes (n v : Nat) : frombe (beBytes n v) = v % 256 ^ n := by
  induction n with
  | zero => simp [beBytes, Nat.mod_one]
  | succ n ih =>
    have hm : v % 256 ^ (n + 1) = v % 256 ^ n + 256 ^ n * (v / 256 ^ n % 256) := Nat.mod_mul
    rw [beBytes, frombe_cons, ih, beBytes_length, BitVec.toNat_ofNat, hm, Nat.mul_comm, Nat.add_comm]

/-- A byte sequence is the bytes of its number. -/
theorem beBytes_frombe (s : Bytes) : beBytes s.length (frombe s) = s :=
  frombe_inj (beBytes_length ..) ((frombe_beBytes ..).trans (Nat.mod_eq_of_lt (frombe_lt s)))

/-! ### ResolveLen (R72) and the three forms of R53 -/

theorem resolveLen_126 (ext : Bytes) :
    resolveLen 126 ext = if frombe ext < 126 then none else some (BitVec.ofNat 64 (frombe ext)) := rfl

theorem resolveLen_127 (ext : Bytes) :
    resolveLen 127 ext =
      if 2 ^ 63 ≤ frombe ext ∨ frombe ext < 65536 then none else some (BitVec.ofNat 64 (frombe ext)) := by
  rw [ite_or]
  rfl

/-- A slot is a length or one of the two sentinels. -/
theorem slot_cases (l7 : BitVec 7) : l7.toNat ≤ 125 ∨ l7 = 126 ∨ l7 = 127 := by
  bv_omega

/-- A slot of 125 or less announces no extension. -/
theorem extBytes_eq_zero_iff {l7 : BitVec 7} : extBytes l7 = 0 ↔ l7.toNat ≤ 125 := by
  rcases slot_cases l7 with h | rfl | rfl
  · have h6 : l7 ≠ 126 := by rintro rfl; exact absurd h (by decide)
    have h7 : l7 ≠ 127 := by rintro rfl; exact absurd h (by decide)
    rw [extBytes, if_neg h6, if_neg h7]
    exact iff_of_true rfl h
  · decide
  · decide

/-- A slot without an extension is the length itself. -/
theorem resolveLen_inline {l7 : BitVec 7} (h : extBytes l7 = 0) (ext : Bytes) :
    resolveLen l7 ext = some (l7.setWidth 64) := by
  have h6 : l7 ≠ 126 := by rintro rfl; cases h
  have h7 : l7 ≠ 127 := by rintro rfl; cases h
  rw [resolveLen, if_neg h6, if_neg h7]

theorem wire_inline {l : Nat} (h : l ≤ 125) : wireLen7 l = BitVec.ofNat 7 l ∧ wireExt l = [] :=
  ⟨if_pos h, if_pos h⟩

theorem wire_16 {l : Nat} (h : 126 ≤ l) (h' : l ≤ 65535) : wireLen7 l = 126 ∧ wireExt l = beBytes 2 l := by
  have h5 : ¬ l ≤ 125 := by omega
  exact ⟨(if_neg h5).trans (if_pos h'), (if_neg h5).trans (if_pos h')⟩

theorem wire_64 {l : Nat} (h : 65536 ≤ l) : wireLen7 l = 127 ∧ wireExt l = beBytes 8 l := by
  have h5 : ¬ l ≤ 125 := by omega
  have h6 : ¬ l ≤ 65535 := by omega
  exact ⟨(if_neg h5).trans (if_neg h6), (if_neg h5).trans (if_neg h6)⟩

/-- A length takes one of the three forms (R53). -/
theorem wire_cases (l : Nat) :
    (l ≤ 125 ∧ (wireLen7 l).toNat = l ∧ wireExt l = []) ∨
      (126 ≤ l ∧ l ≤ 65535 ∧ wireLen7 l = 126 ∧ wireExt l = beBytes 2 l) ∨
      (65536 ≤ l ∧ wireLen7 l = 127 ∧ wireExt l = beBytes 8 l) := by
  by_cases h5 : l ≤ 125
  · obtain ⟨hl, he⟩ := wire_inline h5
    exact .inl ⟨h5, by rw [hl, BitVec.toNat_ofNat, Nat.mod_eq_of_lt (by omega)], he⟩
  by_cases h6 : l ≤ 65535
  · exact .inr (.inl ⟨by omega, h6, wire_16 (by omega) h6⟩)
  · exact .inr (.inr ⟨by omega, wire_64 (by omega)⟩)

/-- The extension has the bytes its slot announces. -/
theorem wireExt_length (l : Nat) : (wireExt l).length = extBytes (wireLen7 l) := by
  rcases wire_cases l with ⟨h, hl, he⟩ | ⟨-, -, hl, he⟩ | ⟨-, hl, he⟩
  · rw [he, extBytes_eq_zero_iff.mpr (hl.symm ▸ h), List.length_nil]
  · rw [hl, he, beBytes_length]; rfl
  · rw [hl, he, beBytes_length]; rfl

/-- The pair of R53 resolves to its length. -/
theorem resolveLen_wire {l : Nat} (h : l < 2 ^ 63) : resolveLen (wireLen7 l) (wireExt l) = some (BitVec.ofNat 64 l) := by
  rcases wire_cases l with ⟨hs, hl, he⟩ | ⟨hlo, hhi, hl, he⟩ | ⟨hlo, hl, he⟩
  · rw [resolveLen_inline (extBytes_eq_zero_iff.mpr (hl.symm ▸ hs)), ← BitVec.ofNat_toNat, hl]
  · rw [hl, he, resolveLen_126, frombe_beBytes, Nat.mod_eq_of_lt (by omega), if_neg (by omega)]
  · rw [hl, he, resolveLen_127, frombe_beBytes, Nat.mod_eq_of_lt (by omega), if_neg (by omega)]

/-- Only the pair of R53 resolves to a length (R54). -/
theorem wire_of_resolveLen {l7 : BitVec 7} {ext : Bytes} {v : BitVec 64} (hn : ext.length = extBytes l7)
    (h : resolveLen l7 ext = some v) : l7 = wireLen7 v.toNat ∧ ext = wireExt v.toNat := by
  have hlt := frombe_lt ext
  have hbytes := beBytes_frombe ext
  rcases slot_cases l7 with hs | rfl | rfl
  · have hx := extBytes_eq_zero_iff.mpr hs
    rw [hx] at hn
    cases h.symm.trans (resolveLen_inline hx ext)
    obtain ⟨hl, he⟩ := wire_inline hs
    rw [BitVec.toNat_setWidth, Nat.mod_eq_of_lt (by omega), hl, he]
    exact ⟨by simp, List.length_eq_zero_iff.mp hn⟩
  · rw [show ext.length = 2 from hn] at hlt hbytes
    rw [resolveLen_126] at h
    split at h
    · cases h
    · cases h
      obtain ⟨hl, he⟩ := wire_16 (l := frombe ext) (by omega) (by omega)
      rw [BitVec.toNat_ofNat, Nat.mod_eq_of_lt (by omega), hl, he, hbytes]
      exact ⟨rfl, rfl⟩
  · rw [show ext.length = 8 from hn] at hlt hbytes
    rw [resolveLen_127] at h
    split at h
    · cases h
    · cases h
      obtain ⟨hl, he⟩ := wire_64 (l := frombe ext) (by omega)
      rw [BitVec.toNat_ofNat, Nat.mod_eq_of_lt (by omega), hl, he, hbytes]
      exact ⟨rfl, rfl⟩

/-- An illegal extension has the bytes its sentinel announces and does not resolve (R54). -/
theorem resolveLen_illegal {l7 : BitVec 7} {ext : Bytes} (h : IllegalExt l7 ext) :
    ext.length = extBytes l7 ∧ resolveLen l7 ext = none := by
  obtain ⟨rfl, v, hv, rfl⟩ | ⟨rfl, v, hlt, hv, rfl⟩ := h
  · refine ⟨beBytes_length .., ?_⟩
    rw [resolveLen_126, frombe_beBytes, Nat.mod_eq_of_lt (by omega), if_pos hv]
  · refine ⟨beBytes_length .., ?_⟩
    rw [resolveLen_127, frombe_beBytes, Nat.mod_eq_of_lt (by omega), if_pos hv.symm]

end Machine

end Sys2Proof
end

section
/-! PROOFS. Pull over bytes that are known (20_memory.md R37): in buffer mode and in stream mode, the bytes pulled are
those ahead; and with it, what the four length decoders do with an illegal extension (30_encoding.md R54). -/

namespace Sys2Proof

/-- The two header bytes of the wire read as the header word of their fields (R52). -/
theorem headerOfBytes_wireHeader (fin : Bool) (rsv : BitVec 3) (opc : BitVec 4) (msk : Bool) (len7 : BitVec 7) :
    headerOfBytes (Machine.wireHeader fin rsv opc msk len7) = headerWord fin rsv opc msk len7 := by
  rw [Machine.wireHeader, Machine.headerOfBytes_two]
  refine BitVec.eq_of_getLsbD_eq fun i hi => ?_
  unfold headerWord
  iterate 8 rw [BitVec.getLsbD_append]
  interval_cases i <;> simp

namespace Machine

/-! ### Pull -/

/-- In buffer mode the bytes `pre` of OP_BUF are consumed and the bytes `ahead` are not. -/
structure BufferAt (pre ahead : Bytes) (s : State) : Prop where
  buf : s.ops.buf = pre ++ ahead
  count : s.work.cnt.toNat = pre.length

theorem bufferAt_clearCount (s : State) : BufferAt [] s.ops.buf (clearCount s) := ⟨rfl, rfl⟩

theorem BufferAt.onBuffer {pre a ahead : Bytes} {s : State} (h : BufferAt pre (a ++ ahead) s)
    (k : Bytes → State → Result) : onBuffer a.length s k = k a (countPulled a.length s) := by
  obtain ⟨hb, hc⟩ := h
  rw [onBuffer_enough k (by simp [hb, hc]), hb, hc, List.drop_left, List.take_left]

theorem BufferAt.pulled {pre a ahead : Bytes} {s : State} (h : BufferAt pre (a ++ ahead) s)
    (hl : (pre ++ a).length < 2 ^ 64) : BufferAt (pre ++ a) ahead (countPulled a.length s) where
  buf := by rw [countPulled_ops, h.buf, List.append_assoc]
  count := by
    rw [List.length_append] at hl ⊢
    rw [countPulled_work, BitVec.toNat_add, BitVec.toNat_ofNat, h.count]
    omega

/-- In stream mode the bytes at the head of STRM are pulled (R37). -/
theorem onStream_append {a rest : Bytes} {s : State} (h : s.strm = a ++ rest) (k : Bytes → State → Result) :
    onStream a.length s k = k a { consumed a.length s with strm := rest } := by
  have hc : consumed a.length s = { consumed a.length s with strm := rest } := by
    simp [consumed, h]
  rw [onStream_enough k (by simp [h]), hc, h, List.take_left]

/-! ### FDECB's header and extension -/

/-- F_HDR runs on the fields of a wire header at the head of OP_BUF (43_frame_codec.md R83). -/
theorem execFdecb_header {txt fin msk : Bool} {rsv : BitVec 3} {opc : BitVec 4} {len7 : BitVec 7} {ahead : Bytes}
    {s : State} (h : s.ops.buf = wireHeader fin rsv opc msk len7 ++ ahead) :
    ∃ w, BufferAt (wireHeader fin rsv opc msk len7) ahead { s with work := w } ∧
      execFdecb txt s = headerPhase (bufferNext txt) txt ⟨fin, rsv, opc, msk, len7⟩ { s with work := w } := by
  have hb := bufferAt_clearCount s
  rw [h] at hb
  have hp := hb.pulled (by simp [wireHeader])
  refine ⟨(latchHeader (headerWord fin rsv opc msk len7) (countPulled 2 (clearCount s))).work, ⟨hp.buf, hp.count⟩, ?_⟩
  refine (hb.onBuffer _).trans ?_
  rw [readHeader, headerOfBytes_wireHeader, unpackHdr_headerWord]
  rfl

/-- What follows the length in buffer mode: F_KEY and F_PAY, each read at once (R84). -/
def ReadsAhead (txt : Bool) (next : Phase → State → Result) : Prop :=
  next .fKey = bufferKey txt ∧ next .fPay = bufferPay txt

/-- Then F_EXT runs on the extension, which is empty when the slot is the length itself. -/
theorem execFdecb_ext {txt fin msk : Bool} {rsv : BitVec 3} {opc : BitVec 4} {len7 : BitVec 7} {ext ahead : Bytes}
    {s : State} (hl : ext.length = extBytes len7)
    (h : s.ops.buf = wireHeader fin rsv opc msk len7 ++ (ext ++ ahead)) :
    ∃ next w, ReadsAhead txt next ∧
      BufferAt (wireHeader fin rsv opc msk len7 ++ ext) ahead
        (headerLatched ⟨fin, rsv, opc, msk, len7⟩ { s with work := w }) ∧
      execFdecb txt s = extPhase next txt ext (headerLatched ⟨fin, rsv, opc, msk, len7⟩ { s with work := w }) := by
  obtain ⟨w, ⟨hbuf, hcount⟩, e⟩ := execFdecb_header (txt := txt) h
  rcases headerPhase_cases (bufferNext txt) txt ⟨fin, rsv, opc, msk, len7⟩ { s with work := w } with
    ⟨h0, e'⟩ | ⟨-, e'⟩ <;> rw [e, e']
  · obtain rfl : ext = [] := List.length_eq_zero_iff.mp (hl.trans h0)
    refine ⟨bufferNext txt, w, ⟨rfl, rfl⟩, ⟨by rwa [List.append_nil], by rwa [List.append_nil]⟩, ?_⟩
    have hr : resolveLen len7 [] = some (len7.setWidth 64) := resolveLen_inline h0 []
    simp only [extPhase, headerLatched, hr]
  · have hu : BufferAt (wireHeader fin rsv opc msk len7) (ext ++ ahead)
        (headerLatched ⟨fin, rsv, opc, msk, len7⟩ { s with work := w }) := ⟨hbuf, hcount⟩
    have hx := extBytes_cases len7
    have hp := hu.pulled (by
      simp only [wireHeader, List.length_append, List.length_cons, List.length_nil]
      omega)
    refine ⟨bufferAfterLength txt, (countPulled ext.length { s with work := w }).work, ⟨rfl, rfl⟩,
      ⟨hp.buf, hp.count⟩, ?_⟩
    have hr := hu.onBuffer (extPhase (bufferAfterLength txt) txt)
    rw [hl] at hr
    exact hr.trans (by rw [hl]; rfl)

/-! ### Illegal extensions -/

theorem finishLength_illegal {l7 : BitVec 7} {ext : Bytes} (h : IllegalExt l7 ext) (s : State) :
    finishLength l7 ext s = .next (errored 2 s) := by
  obtain ⟨-, hr⟩ := resolveLen_illegal h
  rw [finishLength, hr]
  rfl

theorem extPhase_illegal {next : Phase → State → Result} {txt : Bool} {ext : Bytes} {s : State}
    (h : IllegalExt s.work.len7 ext) : extPhase next txt ext s = .next (errored 2 s) := by
  obtain ⟨-, hr⟩ := resolveLen_illegal h
  rw [extPhase, hr]
  rfl

theorem execLdecb_illegal {l7 : BitVec 7} {ext rest : Bytes} {s : State} (h : IllegalExt l7 ext)
    (hs : s.ops.buf = ext ++ rest) : ∃ w, execLdecb l7 s = .next (errored 2 { s with work := w }) := by
  obtain ⟨hl, -⟩ := resolveLen_illegal h
  have hb := bufferAt_clearCount s
  rw [hs] at hb
  rw [execLdecb, ← hl, hb.onBuffer, finishLength_illegal h]
  exact ⟨_, rfl⟩

theorem execFdecb_illegal {txt fin msk : Bool} {rsv : BitVec 3} {opc : BitVec 4} {l7 : BitVec 7} {ext rest : Bytes}
    {s : State} (h : IllegalExt l7 ext) (hs : s.ops.buf = wireHeader fin rsv opc msk l7 ++ ext ++ rest) :
    ∃ w, execFdecb txt s = .next (errored 2 { s with work := w }) := by
  obtain ⟨hl, -⟩ := resolveLen_illegal h
  rw [List.append_assoc] at hs
  obtain ⟨next, w, -, -, e⟩ := execFdecb_ext (txt := txt) hl hs
  exact ⟨_, e.trans (extPhase_illegal h)⟩

theorem execLdecs_illegal {l7 : BitVec 7} {ext rest : Bytes} {s : State} (h : IllegalExt l7 ext) (hp : s.phase = .fExt)
    (hs : s.strm = ext ++ rest) : ∃ w, execLdecs l7 s = .next (errored 2 { s with work := w, strm := rest }) := by
  obtain ⟨hl, -⟩ := resolveLen_illegal h
  rw [execLdecs_fExt hp, ← hl, onStream_append hs, finishLength_illegal h]
  exact ⟨_, rfl⟩

theorem execFdecs_illegal {txt : Bool} {ext rest : Bytes} {s : State} (h : IllegalExt s.work.len7 ext)
    (hp : s.phase = .fExt) (hs : s.strm = ext ++ rest) : ∃ w, execFdecs txt s = .next (errored 2 { s with work := w, strm := rest }) := by
  obtain ⟨hl, -⟩ := resolveLen_illegal h
  have e : execFdecs txt s = onStream ext.length s (extPhase streamNext txt) := by
    rw [hl]
    simp only [execFdecs, hp, phaseNeed]
  rw [e, onStream_append hs]
  exact ⟨_, extPhase_illegal h⟩

/-- Settles O16: the pair of R53 is the one that resolves, and no decoder resolves another. -/
theorem illegalLengthsRejected : Obligations.IllegalLengthsRejected := by
  refine ⟨fun l hl => ⟨_, _, wireExt_length l, resolveLen_wire hl⟩, ?_, ?_⟩
  · intro l7 ext l7' ext' v hn hn' h h'
    obtain ⟨rfl, rfl⟩ := wire_of_resolveLen hn h
    obtain ⟨rfl, rfl⟩ := wire_of_resolveLen hn' h'
    exact ⟨rfl, rfl⟩
  · intro l7 ext rest s h
    refine ⟨execLdecb_illegal h, fun txt fin rsv opc msk => execFdecb_illegal h, execLdecs_illegal h, ?_⟩
    rintro txt hp rfl hs
    exact execFdecs_illegal h hp hs

end Machine

end Sys2Proof
end

section
/-! PROOFS. The wire frame of 30_encoding.md R51 to R53 against the codec: FENC writes it and FDECB reads it back, whatever
follows it; and with both, the CLOSE pseudo-command of R65. -/

namespace Sys2Proof

/-! ### Headers and lengths as FENC writes them -/

theorem be16_eq_beBytes (v : BitVec 16) : be16 v = Machine.beBytes 2 v.toNat := by
  simp [be16, Machine.beBytes, BitVec.extractLsb', Nat.shiftRight_eq_div_pow]

theorem be64_eq_beBytes (v : BitVec 64) : be64 v = Machine.beBytes 8 v.toNat := by
  simp [be64, Machine.beBytes, BitVec.extractLsb', Nat.shiftRight_eq_div_pow]

theorem packHdr_eq_headerWord (fin : Bool) (opc : BitVec 4) (msk : Bool) (len7 : BitVec 7) :
    packHdr fin opc msk len7 = headerWord fin 0 opc msk len7 := by
  refine BitVec.eq_of_getLsbD_eq fun i hi => ?_
  unfold packHdr headerWord
  iterate 4 rw [BitVec.getLsbD_append]
  interval_cases i <;> simp

theorem be16_append (a b : Byte) : be16 (a ++ b : BitVec 16) = [a, b] := by
  rw [be16, BitVec.extractLsb'_append_eq_left, BitVec.extractLsb'_append_eq_right]

/-- The header word is sent first byte first (20_memory.md R41). -/
theorem be16_headerWord (fin : Bool) (rsv : BitVec 3) (opc : BitVec 4) (msk : Bool) (len7 : BitVec 7) :
    be16 (headerWord fin rsv opc msk len7) = Machine.wireHeader fin rsv opc msk len7 := by
  rw [← headerOfBytes_wireHeader, Machine.wireHeader, Machine.headerOfBytes_two, be16_append]

/-- Two bytes of a 16-bit number, put together again. -/
theorem append_extract_bytes (v : BitVec 16) : (v.extractLsb' 8 8 ++ v.extractLsb' 0 8 : BitVec 16) = v :=
  (Machine.headerOfBytes_two _ _).symm.trans (headerOfBytes_be16 v)

namespace Machine

theorem lenEnc_wire {l : Nat} (h : l < 2 ^ 63) : lenEnc l = some (wireLen7 l, wireExt l) := by
  have hb : ¬ Config.wireLenBound ≤ l := Nat.not_le.mpr h
  rw [lenEnc, if_neg hb, be16_eq_beBytes, be64_eq_beBytes, BitVec.toNat_ofNat, BitVec.toNat_ofNat]
  by_cases h5 : l ≤ 125
  · obtain ⟨hl, he⟩ := wire_inline h5
    rw [if_pos h5, hl, he]
  by_cases h6 : l ≤ 65535
  · obtain ⟨hl, he⟩ := wire_16 (by omega) h6
    rw [if_neg h5, if_pos h6, hl, he, Nat.mod_eq_of_lt (by omega)]
  · obtain ⟨hl, he⟩ := wire_64 (l := l) (by omega)
    rw [if_neg h5, if_neg h6, hl, he, Nat.mod_eq_of_lt (by omega)]

/-! ### Masking (42_masking.md R76) -/

theorem xorFrom_eq_mapIdx (k : MaskKey) (j : Nat) (p : Bytes) :
    xorFrom k j p = p.mapIdx fun i b => b ^^^ k.toBytes.getD ((j + i) % 4) 0 := by
  induction p generalizing j with
  | nil => rfl
  | cons b bs ih =>
    rw [xorFrom_cons, ih, List.mapIdx_cons, MaskKey.at_eq_getD]
    simp only [Nat.add_assoc, Nat.add_comm 1, Nat.add_zero]

theorem xorMask_eq_maskedBytes (k : MaskKey) (p : Bytes) : xorMask k p = maskedBytes k p := by
  simp only [xorMask, maskedBytes, xorFrom_eq_mapIdx, Nat.zero_add]

theorem xorFrom_xorFrom (k : MaskKey) (j : Nat) (p : Bytes) : xorFrom k j (xorFrom k j p) = p := by
  induction p generalizing j with
  | nil => rfl
  | cons b bs ih => rw [xorFrom_cons, xorFrom_cons, ih, BitVec.xor_assoc, BitVec.xor_self, BitVec.xor_zero]

/-- Unmasking gives the payload back. -/
theorem xorMask_maskedBytes (k : MaskKey) (p : Bytes) : xorMask k (maskedBytes k p) = p := by
  rw [← xorMask_eq_maskedBytes]
  exact xorFrom_xorFrom k 0 p

theorem maskedBytes_length (k : MaskKey) (p : Bytes) : (maskedBytes k p).length = p.length := by
  rw [← xorMask_eq_maskedBytes, xorMask_length]

/-! ### FENC writes the wire frame (43_frame_codec.md R80) -/

theorem frameBytes_eq_wireFrame (fin : Bool) (opc : BitVec 4) (key : Option MaskKey) (p : Bytes) :
    frameBytes fin opc key.isSome (wireLen7 p.length) (wireExt p.length) (wireBody key p) = wireFrame fin 0 opc key p := by
  rw [frameBytes, packHdr_eq_headerWord, be16_headerWord]
  rfl

theorem execFenc_unmasked {s : State} (h : s.ops.data.length < 2 ^ 63) (opc : BitVec 4) (fin ksup : Bool) :
    execFenc opc fin false ksup s = .next (completed { s.res with data := wireFrame fin 0 opc none s.ops.data } s) := by
  rw [execFenc, lenEnc_wire h, ← frameBytes_eq_wireFrame]
  rfl

theorem maskedBody_eq_wireBody (k : MaskKey) (p : Bytes) : maskedBody k p = wireBody (some k) p := by
  rw [maskedBody, xorMask_eq_maskedBytes]
  rfl

theorem execFenc_supplied {s : State} {k : MaskKey} (h : s.ops.data.length < 2 ^ 63) (hk : s.ops.key = k.toBytes)
    (opc : BitVec 4) (fin : Bool) : execFenc opc fin true true s =
      .next (completed { s.res with data := wireFrame fin 0 opc (some k) s.ops.data } s) := by
  rw [execFenc, lenEnc_wire h, ← frameBytes_eq_wireFrame, hk, ← maskedBody_eq_wireBody]
  rfl

theorem execFenc_drawn {s : State} (h : s.ops.data.length < 2 ^ 63) (opc : BitVec 4) (fin : Bool) :
    execFenc opc fin true false s =
      .next (completed { s.res with data := wireFrame fin 0 opc (some (draw4 s).1) s.ops.data } (draw4 s).2) := by
  rw [execFenc, lenEnc_wire h, ← frameBytes_eq_wireFrame, ← maskedBody_eq_wireBody]
  rfl

theorem execFenc_keyLength {s : State} (h : s.ops.data.length < 2 ^ 63) (hk : s.ops.key.length ≠ 4) (opc : BitVec 4)
    (fin : Bool) : execFenc opc fin true true s = .next (errored 3 s) := by
  rw [execFenc, lenEnc_wire h, MaskKey.ofBytes?_eq_none.mpr hk]
  rfl

/-- FENC with a legal key choice writes a wire frame of its payload, and spends nothing but draws. -/
theorem execFenc_wireFrame {s : State} {msk ksup : Bool} (h : s.ops.data.length < 2 ^ 63)
    (hk : ksup = true → s.ops.key.length = 4) (opc : BitVec 4) (fin : Bool) :
    ∃ key draws n, execFenc opc fin msk ksup s =
      .next (completed { s.res with data := wireFrame fin 0 opc key s.ops.data }
        { s with keyDraws := draws, drawCount := n }) := by
  cases msk with
  | false => exact ⟨none, s.keyDraws, s.drawCount, execFenc_unmasked h opc fin ksup⟩
  | true =>
    cases ksup with
    | false =>
      obtain ⟨draws, n, hd⟩ := draw4_frame s
      exact ⟨some (draw4 s).1, draws, n, by rw [execFenc_drawn h, hd]⟩
    | true =>
      cases ho : MaskKey.ofBytes? s.ops.key with
      | none => exact absurd (hk rfl) (MaskKey.ofBytes?_eq_none.mp ho)
      | some k =>
        exact ⟨some k, s.keyDraws, s.drawCount, execFenc_supplied h (MaskKey.ofBytes?_eq_some.mp ho) opc fin⟩

/-! ### The end of a frame decode (R83, R86, R87) -/

/-- The close split of a whole payload: the code, RES_CLOSE_V and the logical payload of `frameResults`. -/
theorem closeSplit_payload {p : Bytes} (h : p.length < 2 ^ 64) (opc : BitVec 4) :
    closeSplit opc (BitVec.ofNat 64 p.length) p =
      if opc = 8 ∧ p.length = 1 then none
      else some (if opc = 8 ∧ p ≠ [] then (p.getD 0 0 ++ p.getD 1 0 : BitVec 16) else 0, decide (opc = 8 ∧ p ≠ []),
        if opc = 8 then p.drop 2 else p) := by
  by_cases hc : opc = 8
  · subst hc
    match p with
    | [] | [_] => rfl
    | a :: b :: r =>
      have hv : (BitVec.ofNat 64 (a :: b :: r).length).toNat = r.length + 2 := by
        rw [BitVec.toNat_ofNat, Nat.mod_eq_of_lt h]
        rfl
      have h0 : BitVec.ofNat 64 (a :: b :: r).length ≠ 0 := fun e => by rw [e] at hv; cases hv
      have h1 : BitVec.ofNat 64 (a :: b :: r).length ≠ 1 := fun e => by rw [e] at hv; cases hv
      rw [closeSplit, if_pos ⟨rfl, h0⟩, if_neg h1, show BitVec.ofNat 16 (frombe ((a :: b :: r).take 2)) = a ++ b from
        headerOfBytes_two a b]
      simp
  · simp only [closeSplit, hc, false_and, if_false, decide_false]

/-- `o` is the end of the decode, from `s`, of a frame with payload `p` of which `n` bytes are consumed; only working
registers besides. -/
def FrameEnds (txt fin : Bool) (opc : BitVec 4) (p : Bytes) (n : Nat) (s : State) (o : Result) : Prop :=
  ∃ w, o = .next (frameEnd txt fin opc p n { s with work := w })

/-- The text check reads the payload, which only a close frame splits (R87). -/
theorem textRefused_logical {txt : Bool} {opc : BitVec 4} {p : Bytes} :
    textRefused txt opc (if opc = 8 then p.drop 2 else p) = true ↔ txt = true ∧ opc = 1 ∧ utf8Valid p = false := by
  by_cases ho : opc = 1
  · simp [textRefused, ho]
  · simp only [textRefused, ho, beq_eq_false_iff_ne.mpr ho, Bool.and_false, Bool.false_and, Bool.false_eq_true, false_and,
      and_false]

/-- F_POST of a whole payload ends the frame. -/
theorem finishFrame_frameEnds {s : State} {p : Bytes} (hp : s.work.pay = p) (hl : s.work.plen.toNat = p.length)
    (txt : Bool) : FrameEnds txt s.work.fin s.work.opc p s.work.cnt.toNat s (finishFrame txt s) := by
  have hlt : p.length < 2 ^ 64 := hl ▸ s.work.plen.isLt
  have hv : s.work.plen = BitVec.ofNat 64 p.length := by rw [← hl, BitVec.ofNat_toNat, BitVec.setWidth_eq]
  unfold FrameEnds
  rw [finishFrame, hp, hv, closeSplit_payload hlt]
  unfold frameEnd frameError
  by_cases h1 : s.work.opc = 8 ∧ p.length = 1
  · simp only [if_pos h1]
    exact ⟨_, rfl⟩
  simp only [if_neg h1]
  by_cases h4 : txt = true ∧ s.work.opc = 1 ∧ utf8Valid p = false
  · rw [if_pos (textRefused_logical.mpr h4), if_pos h4]
    exact ⟨_, rfl⟩
  · rw [if_neg (textRefused_logical.not.mpr h4), if_neg h4]
    refine ⟨_, congrArg (fun r => Host.Outcome.next (completed r _)) ?_⟩
    simp [decodedResults, frameResults, hv]

/-- The payload of the raw bytes that F_PAY pulls, under the mask and the key latched (R83). -/
def unmasked (w : WorkRegs) (raw : Bytes) : Bytes := if w.mask then xorMask w.key raw else raw

theorem unmasked_length (w : WorkRegs) (raw : Bytes) : (unmasked w raw).length = raw.length := by
  unfold unmasked
  split
  · exact xorMask_length ..
  · rfl

/-- F_PAY ends the frame. -/
theorem payPhase_frameEnds {s : State} {raw : Bytes} (hl : s.work.plen.toNat = raw.length) (txt : Bool) :
    FrameEnds txt s.work.fin s.work.opc (unmasked s.work raw) s.work.cnt.toNat s (payPhase txt raw s) :=
  finishFrame_frameEnds (s := { s with work := { s.work with pay := unmasked s.work raw } }) rfl
    (hl.trans (unmasked_length ..).symm) txt

/-! ### FDECB reads the wire frame (R83, R84) -/

/-- After the key: F_PAY pulls the payload, or there is none to pull. -/
theorem afterKey_frameEnds {next : Phase → State → Result} {txt : Bool} {pre raw rest : Bytes} {s : State}
    (hp : next .fPay = bufferPay txt) (hb : BufferAt pre (raw ++ rest) s) (hl : s.work.plen.toNat = raw.length)
    (hn : (pre ++ raw).length < 2 ^ 64) :
    FrameEnds txt s.work.fin s.work.opc (unmasked s.work raw) (pre ++ raw).length s (afterKey next txt s) := by
  by_cases h0 : s.work.plen = 0
  · obtain rfl : raw = [] := List.length_eq_zero_iff.mp (hl.symm.trans (by rw [h0]; rfl))
    have hu : unmasked s.work [] = [] := List.length_eq_zero_iff.mp (unmasked_length ..)
    rw [afterKey, if_pos h0, hu, List.append_nil, ← hb.count]
    exact finishFrame_frameEnds (s := { s with work := { s.work with pay := [] } }) rfl hl txt
  · rw [afterKey, if_neg h0, hp, bufferPay, phaseNeed, hl, hb.onBuffer, ← (hb.pulled hn).count]
    exact payPhase_frameEnds (s := countPulled raw.length s) hl txt

theorem unmasked_maskedBytes {w : WorkRegs} (hm : w.mask = true) (k : MaskKey) (p : Bytes) :
    unmasked { w with key := k } (maskedBytes k p) = p :=
  (if_pos hm).trans (xorMask_maskedBytes k p)

/-- F_KEY pulls the key of a masked payload. -/
theorem bufferKey_frameEnds {txt : Bool} {pre p rest : Bytes} {k : MaskKey} {s : State}
    (hb : BufferAt pre (wireBody (some k) p ++ rest) s) (hm : s.work.mask = true) (hl : s.work.plen.toNat = p.length)
    (hn : (pre ++ wireBody (some k) p).length < 2 ^ 64) :
    FrameEnds txt s.work.fin s.work.opc p (pre ++ wireBody (some k) p).length s (bufferKey txt s) := by
  rw [wireBody, ← List.append_assoc] at hn ⊢
  rw [wireBody, List.append_assoc] at hb
  have hb' := hb.pulled (by rw [List.length_append] at hn; omega)
  have h := afterKey_frameEnds (next := fun _ => bufferPay txt) (txt := txt)
    (s := { countPulled 4 s with work := { (countPulled 4 s).work with key := k } }) rfl ⟨hb'.buf, hb'.count⟩
    (hl.trans (maskedBytes_length k p).symm) hn
  rw [unmasked_maskedBytes (w := (countPulled 4 s).work) hm] at h
  rw [bufferKey, show phaseNeed .fKey s.work = k.toBytes.length from rfl, hb.onBuffer, keyPhase, MaskKey.ofPulled_toBytes]
  exact h

/-- What follows a resolved length that fits: the key of a masked frame and the payload. -/
theorem afterLength_frameEnds {next : Phase → State → Result} {txt : Bool} {pre p rest : Bytes} {key : Option MaskKey}
    {s : State} (hr : ReadsAhead txt next) (hb : BufferAt pre (wireBody key p ++ rest) s) (hm : s.work.mask = key.isSome)
    (hl : p.length ≤ s.maxPayload.val) (hn : (pre ++ wireBody key p).length < 2 ^ 64) :
    FrameEnds txt s.work.fin s.work.opc p (pre ++ wireBody key p).length s
      (afterLength next txt (BitVec.ofNat 64 p.length) s) := by
  obtain ⟨hk, hp⟩ := hr
  have hv : (BitVec.ofNat 64 p.length).toNat = p.length := by
    have := s.maxPayload.isLt
    rw [BitVec.toNat_ofNat, Nat.mod_eq_of_lt (by omega)]
  have hc : ¬ s.maxPayload.val < (BitVec.ofNat 64 p.length).toNat := by omega
  have hb' : BufferAt pre (wireBody key p ++ rest) { s with work := { s.work with plen := BitVec.ofNat 64 p.length } } :=
    ⟨hb.buf, hb.count⟩
  rw [afterLength_fits txt hc]
  cases key with
  | none =>
    have h := afterKey_frameEnds (txt := txt) hp hb' hv hn
    rw [show unmasked _ (wireBody none p) = p from if_neg (by simp [hm])] at h
    rw [if_neg (by simp [hm])]
    exact h
  | some k =>
    rw [if_pos (show s.work.mask = true from hm), hk]
    exact bufferKey_frameEnds hb' hm hv hn

theorem extPhase_resolved {next : Phase → State → Result} {txt : Bool} {ext : Bytes} {v : BitVec 64} {s : State}
    (h : resolveLen s.work.len7 ext = some v) : extPhase next txt ext s = afterLength next txt v s := by
  rw [extPhase, h]

/-- A frame is at most 14 bytes longer than its payload (10_state.md R21). -/
theorem wireFrame_length_le (fin : Bool) (rsv : BitVec 3) (opc : BitVec 4) (key : Option MaskKey) (p : Bytes) :
    (wireFrame fin rsv opc key p).length ≤ p.length + 14 := by
  have hx := extBytes_cases (wireLen7 p.length)
  have hk : (wireBody key p).length ≤ p.length + 4 := by
    cases key with
    | none => exact Nat.le_add_right ..
    | some k => simp [wireBody, maskedBytes_length, Nat.add_comm]
  simp only [wireFrame, wireHeader, List.length_append, wireExt_length, List.length_cons, List.length_nil]
  omega

/-- FDECB of a wire frame ends as the frame says, whatever follows it. -/
theorem execFdecb_wireFrame {txt fin : Bool} {rsv : BitVec 3} {opc : BitVec 4} {key : Option MaskKey} {p rest : Bytes}
    {s : State} (hl : p.length ≤ s.maxPayload.val) (h : s.ops.buf = wireFrame fin rsv opc key p ++ rest) :
    FrameEnds txt fin opc p (wireFrame fin rsv opc key p).length s (execFdecb txt s) := by
  have hm := s.maxPayload.isLt
  have hn := wireFrame_length_le fin rsv opc key p
  rw [wireFrame, List.append_assoc, List.append_assoc] at h
  obtain ⟨next, w, hr, hb, e⟩ := execFdecb_ext (txt := txt) (wireExt_length p.length) h
  have hv := resolveLen_wire (l := p.length) (by omega)
  rw [e, extPhase_resolved hv]
  exact afterLength_frameEnds hr hb rfl hl (by rw [← wireFrame]; omega)

/-! ### CLOSE (30_encoding.md R65, R61) -/

theorem dataLength_le_of_fits {o : OpRegs} {m : Nat} (h : o.fits m = true) : o.data.length ≤ m := by
  simp only [OpRegs.fits, Bool.and_eq_true, decide_eq_true_eq] at h
  obtain ⟨⟨hd, -⟩, -⟩ := h
  exact hd

/-- A close payload of a code and a reason ends its frame with both (43_frame_codec.md R86). -/
theorem frameEnd_close (code : BitVec 16) (reason : Bytes) (n : Nat) (s : State) :
    frameEnd false true 8 (be16 code ++ reason) n s =
      completed { s.res with
        opc := 8, fin := true, data := reason, len := BitVec.ofNat 64 (be16 code ++ reason).length, close := code,
        closeV := true, consumed := BitVec.ofNat 64 n } s := by
  have he : frameError false 8 (be16 code ++ reason) = none := by
    have hn : (be16 code ++ reason).length ≠ 1 := by
      rw [List.length_append, be16_length]
      omega
    simp only [frameError, hn, and_false, Bool.false_eq_true, false_and, if_false]
  rw [frameEnd, he]
  simp [frameResults, be16, append_extract_bytes]

section
variable {code : BitVec 16} {reason : Bytes} {msk : Bool} {key : Option Bytes} {s : State}

/-- The word of a CLOSE is that of an FENC with opcode 8 and FIN, which R61 rejects when a key is named and MSK is 0. -/
theorem decodeCommand_pseudoClose : decodeCommand (pseudoClose code reason msk key).cw =
    if keyFieldsLegal msk key.isSome then .ok (.fenc 8 true msk key.isSome) else .error .keyWithoutMask :=
  decodeCommand_fencWord ..

variable (hb : s.status.busy = false) (hf : (pseudoClose code reason msk key).ops.fits s.maxPayload.val = true)
  (hi : s.inputs = [.issue (pseudoClose code reason msk key)])
include hb hf hi

theorem step_pseudoClose_illegal (hk : keyFieldsLegal msk key.isSome = false) :
    ∃ t, step s = .next t ∧ t.status.err = true ∧ t.errcode = 6 := by
  have hd := decodeCommand_pseudoClose (code := code) (reason := reason) (msk := msk) (key := key)
  rw [hk] at hd
  obtain ⟨-, hstep⟩ := illegalCommandWords
  exact ⟨_, hstep s _ [] _ hb hi hf hd, rfl, rfl⟩

theorem step_pseudoClose_legal (hk : keyFieldsLegal msk key.isSome = true) : step s =
    execFenc 8 true msk key.isSome (latch (pseudoClose code reason msk key) { s with inputs := [] }) :=
  step_issue_exec hb hi hf (decodeCommand_pseudoClose.trans (if_pos hk))

end

/-- FDECB issued on a wire frame that fits ends as the frame says, in one step. -/
theorem step_fdecb_wireFrame {txt fin : Bool} {rsv : BitVec 3} {opc : BitVec 4} {key : Option MaskKey} {p : Bytes} {s : State}
    (hb : s.status.busy = false) (hl : p.length ≤ s.maxPayload.val)
    (hi : s.inputs = [.issue (asmFdecb txt (wireFrame fin rsv opc key p))]) :
    FrameEnds txt fin opc p (wireFrame fin rsv opc key p).length
      (latch (asmFdecb txt (wireFrame fin rsv opc key p)) { s with inputs := [] }) (step s) := by
  have hn := wireFrame_length_le fin rsv opc key p
  have hf : (asmFdecb txt (wireFrame fin rsv opc key p)).ops.fits s.maxPayload.val = true := by
    simp only [OpRegs.fits, asmFdecb, OpRegs.cleared, List.length_nil, Bool.and_eq_true, decide_eq_true_eq]
    omega
  rw [step_issue_exec hb hi hf (decodeEncodeAgree (.fdecb txt) rfl)]
  exact execFdecb_wireFrame (rest := []) hl (List.append_nil _).symm

/-- FDECB of a close frame gives its code and reason, with no error. -/
theorem step_fdecb_close {code : BitVec 16} {reason : Bytes} {key : Option MaskKey} {t : State}
    (hb : t.status.busy = false) (hl : (be16 code ++ reason).length ≤ t.maxPayload.val)
    (hd : t.res.data = wireFrame true 0 8 key (be16 code ++ reason)) :
    ∃ u, step { t with inputs := [.issue (asmFdecb false t.res.data)] } = .next u ∧
      u.status = { busy := false, done := true, err := false, hold := false } ∧
      u.res.opc = 8 ∧ u.res.fin = true ∧ u.res.closeV = true ∧ u.res.close = code ∧ u.res.data = reason := by
  rw [hd]
  obtain ⟨w, e⟩ :=
    step_fdecb_wireFrame (s := { t with inputs := [.issue (asmFdecb false (wireFrame true 0 8 key _))] }) hb hl rfl
  rw [frameEnd_close] at e
  exact ⟨_, e, rfl, rfl, rfl, rfl, rfl, rfl⟩

/-- Settles O32: the CLOSE writes a wire frame, whose decode ends with the code and the reason. -/
theorem closeFrameDecodesBack : Obligations.CloseFrameDecodesBack := by
  intro code reason msk key s hb hf hi
  have hl := dataLength_le_of_fits hf
  have hdata : (latch (pseudoClose code reason msk key) { s with inputs := [] }).ops.data.length < 2 ^ 63 :=
    Nat.lt_of_le_of_lt hl s.maxPayload.isLt
  refine ⟨fun hk => ?_, fun hk hm => ?_, fun k hk hlen hm => ?_⟩
  · have hlegal : keyFieldsLegal msk key.isSome = true := by
      rcases hk with rfl | ⟨k, rfl, -, rfl⟩ <;> simp [keyFieldsLegal]
    have hkey : key.isSome = true → (key.getD []).length = 4 := by
      rcases hk with rfl | ⟨k, rfl, hlen, -⟩ <;> simp [*]
    obtain ⟨wk, draws, n, e⟩ := execFenc_wireFrame (msk := msk) hdata hkey 8 true
    exact ⟨_, (step_pseudoClose_legal hb hf hi hlegal).trans e, step_fdecb_close rfl hl rfl⟩
  · subst hm
    exact step_pseudoClose_illegal hb hf hi (keyFieldsLegal_eq_false.mpr ⟨hk, rfl⟩)
  · subst hk hm
    exact ⟨_, (step_pseudoClose_legal hb hf hi rfl).trans (execFenc_keyLength hdata hlen 8 true), rfl, rfl⟩

end Machine

end Sys2Proof
end

section
/-! PROOFS. The header codec of 40_header_codec.md: PackHdr and UnpackHdr against the layout of R52, and the commands HENC and
HDEC that answer with them. -/

namespace Sys2Proof

/-! ### PackHdr and UnpackHdr -/

/-- Settles O56: PackHdr lays out a received header word with RSV zero, and UnpackHdr reads any such word. -/
theorem headerFieldsInPlace : Obligations.HeaderFieldsInPlace :=
  ⟨packHdr_eq_headerWord, unpackHdr_headerWord⟩

/-- 0x8FFF clears the RSV bits of a header word and keeps its other fields. -/
theorem unpackHdr_and_clearRsv (h : BitVec 16) : unpackHdr (h &&& 0x8FFF) = { unpackHdr h with rsv := 0 } := by
  simp [unpackHdr, BitVec.extractLsb'_and]

/-- A header word unpacked and packed again has its RSV bits cleared. -/
theorem packHdr_unpackHdr (h : BitVec 16) :
    packHdr (unpackHdr h).fin (unpackHdr h).opc (unpackHdr h).mask (unpackHdr h).len7 = h &&& 0x8FFF := by
  have hw := headerWord_unpackHdr (h &&& 0x8FFF)
  rw [unpackHdr_and_clearRsv] at hw
  exact (packHdr_eq_headerWord ..).trans hw

/-- A header word with RSV zero keeps every bit under 0x8FFF. -/
theorem and_clearRsv_of_rsv_zero {h : BitVec 16} (h0 : (unpackHdr h).rsv = 0) : h &&& 0x8FFF = h := by
  refine unpackHdr_inj ?_
  rw [unpackHdr_and_clearRsv, ← h0]

/-- Settles O11: the header word of the fields with RSV zero lies between the two functions. -/
theorem headerLaws : Obligations.HeaderLaws := by
  refine ⟨fun f o m l => ?_, fun h h0 => ?_, packHdr_unpackHdr⟩
  · rw [packHdr_eq_headerWord, unpackHdr_headerWord]
  · exact (packHdr_unpackHdr h).trans (and_clearRsv_of_rsv_zero h0)

namespace Machine

/-! ### HENC and HDEC (R68, R69) -/

/-- PackHdr's word, first byte first, is the wire header with RSV zero. -/
theorem be16_packHdr (fin : Bool) (opc : BitVec 4) (msk : Bool) (len7 : BitVec 7) :
    be16 (packHdr fin opc msk len7) = wireHeader fin 0 opc msk len7 := by
  rw [packHdr_eq_headerWord, be16_headerWord]

/-- HDEC answers the fields its header word was laid out from. -/
theorem execHdec_headerWord {fin msk : Bool} {rsv : BitVec 3} {opc : BitVec 4} {len7 : BitVec 7} {s : State}
    (h : s.ops.hdr = headerWord fin rsv opc msk len7) : execHdec s =
      .next (completed { s.res with fin := fin, rsv := rsv, opc := opc, mask := msk, len7 := len7 } s) := by
  rw [execHdec, h, unpackHdr_headerWord, complete_eq]

/-- Settles O9: HENC's row is the first of R60, and its two bytes are the wire header with RSV zero. -/
theorem hencPacksHeader : Obligations.HencPacksHeader := by
  refine ⟨fun w hw => ?_, fun fin opc msk len7 s => ?_⟩
  · have hit : rowHenc.hits w = true := beq_iff_eq.mpr hw
    exact if_pos hit
  · change execHenc fin opc msk len7 s = _
    rw [execHenc, be16_packHdr, complete_eq]

/-- Settles O10: HDEC's word is its encoding, and UnpackHdr gives back the fields of OP_HDR. -/
theorem hdecReportsFields : Obligations.HdecReportsFields :=
  ⟨decodeEncodeAgree .hdec rfl, fun _ _ _ _ _ _ h => execHdec_headerWord h⟩

end Machine

end Sys2Proof
end

section
/-! PROOFS. The length codec of 41_length_codec.md: LenEnc and ResolveLen against the pair of slot and extension of
30_encoding.md R53, and the commands LENC, LDECB and LDECS that answer with them. -/

namespace Sys2Proof.Machine

/-! ### LenEnc and ResolveLen (R71, R72, R75) -/

theorem lenEnc_tooLong {l : Nat} (h : 2 ^ 63 ≤ l) : lenEnc l = none := if_pos h

/-- Settles O57: below the bound of R71 LenEnc is the pair of R53. -/
theorem lenEncOfEveryLength : Obligations.LenEncOfEveryLength := fun _ => ⟨lenEnc_wire, lenEnc_tooLong⟩

/-- The number of extension bytes tells the form (R53, R75). -/
theorem wireExt_length_iff (l : Nat) :
    ((wireExt l).length = 0 ↔ l ≤ 125) ∧ ((wireExt l).length = 2 ↔ 126 ≤ l ∧ l ≤ 65535) ∧
      ((wireExt l).length = 8 ↔ 65536 ≤ l) := by
  rcases wire_cases l with ⟨h, -, he⟩ | ⟨hlo, hhi, -, he⟩ | ⟨h, -, he⟩
  · rw [he, List.length_nil]; omega
  · rw [he, beBytes_length]; omega
  · rw [he, beBytes_length]; omega

/-- From 2^63 on the eight bytes of a length have bit 63 set (R54). -/
theorem illegalExt_wire {l : Nat} (h : 2 ^ 63 ≤ l) (hl : l < 2 ^ 64) : IllegalExt (wireLen7 l) (wireExt l) := by
  obtain ⟨h7, he⟩ := wire_64 (l := l) (by omega)
  exact .inr ⟨h7, l, hl, .inr h, he⟩

/-- ResolveLen answers no length that LenEnc refuses. -/
theorem resolveLen_lt {l7 : BitVec 7} {ext : Bytes} {v : BitVec 64} (hn : ext.length = extBytes l7)
    (h : resolveLen l7 ext = some v) : v.toNat < 2 ^ 63 := by
  obtain ⟨rfl, rfl⟩ := wire_of_resolveLen hn h
  by_contra hv
  obtain ⟨-, hnone⟩ := resolveLen_illegal (illegalExt_wire (Nat.not_lt.mp hv) v.isLt)
  cases h.symm.trans hnone

/-- Settles O15: what LenEnc writes, and all that ResolveLen accepts, is the pair of R53. -/
theorem lengthCodecInverse : Obligations.LengthCodecInverse := by
  refine ⟨fun l hl => ⟨_, _, lenEnc_wire hl, resolveLen_wire hl, wireExt_length l, wireExt_length_iff l⟩, ?_⟩
  intro l7 ext v hn h
  have hv := resolveLen_lt hn h
  obtain ⟨rfl, rfl⟩ := wire_of_resolveLen hn h
  exact lenEnc_wire hv

/-! ### LENC (R73) -/

/-- LENC answers what LenEnc writes. -/
theorem execLenc_some {s : State} {l7 : BitVec 7} {ext : Bytes} (h : lenEnc s.ops.len.toNat = some (l7, ext)) :
    execLenc s = .next (completed { s.res with len7 := l7, data := ext } s) := by
  rw [execLenc, h]
  rfl

/-- LENC raises what LenEnc raises. -/
theorem execLenc_none {s : State} (h : lenEnc s.ops.len.toNat = none) : execLenc s = .next (errored 2 s) := by
  rw [execLenc, h]
  rfl

/-- Settles O12: LENC's word is its encoding, and the command ends as LenEnc does. -/
theorem lencPicksTheForm : Obligations.LencPicksTheForm :=
  ⟨decodeEncodeAgree .lenc rfl,
    fun _ => ⟨fun h => execLenc_some (lenEnc_wire h), fun h => execLenc_none (lenEnc_tooLong h)⟩⟩

/-! ### LDECB and LDECS (R74) -/

/-- On the pair of R53 a length decode ends with its length and the count of the bytes pulled. -/
theorem finishLength_wire {l : Nat} (h : l < 2 ^ 63) (s : State) : finishLength (wireLen7 l) (wireExt l) s =
    .next (completed { s.res with len := BitVec.ofNat 64 l, consumed := s.work.cnt } s) := by
  rw [finishLength, resolveLen_wire h]
  rfl

/-- LDECB reads the extension at the head of OP_BUF and none of what follows it. -/
theorem execLdecb_wire {l : Nat} {rest : Bytes} {s : State} (h : l < 2 ^ 63) (hs : s.ops.buf = wireExt l ++ rest) :
    ∃ w, execLdecb (wireLen7 l) s =
      .next (completed { s.res with len := BitVec.ofNat 64 l, consumed := BitVec.ofNat 64 (wireExt l).length }
        { s with work := w }) := by
  have hb := bufferAt_clearCount s
  rw [hs] at hb
  have hcnt : (countPulled (wireExt l).length (clearCount s)).work.cnt = BitVec.ofNat 64 (wireExt l).length :=
    BitVec.zero_add _
  rw [execLdecb, ← wireExt_length, hb.onBuffer, finishLength_wire h, hcnt]
  exact ⟨_, rfl⟩

/-- LDECB with fewer bytes than its slot announces raises `TruncatedFrameError` (R37). -/
theorem execLdecb_short {len7 : BitVec 7} {s : State} (h : s.ops.buf.length < extBytes len7) :
    ∃ w, execLdecb len7 s = .next (errored 1 { s with work := w }) :=
  ⟨_, onBuffer_short (s := clearCount s) _ (by simpa using h)⟩

/-- Settles O13: LDECB resolves the extension its slot announces, or has too few bytes for it. -/
theorem ldecbResolvesLength : Obligations.LdecbResolvesLength :=
  fun _ => ⟨fun _ _ => execLdecb_wire, execLdecb_short (len7 := 126), execLdecb_short (len7 := 127)⟩

/-- LDECS in F_EXT takes the extension from the head of STRM. -/
theorem execLdecs_wire {l : Nat} {rest : Bytes} {s : State} (hp : s.phase = .fExt) (hc : s.work.cnt = 0)
    (h : l < 2 ^ 63) (hs : s.strm = wireExt l ++ rest) :
    ∃ w, execLdecs (wireLen7 l) s =
      .next (completed { s.res with len := BitVec.ofNat 64 l, consumed := BitVec.ofNat 64 (wireExt l).length }
        { s with work := w, strm := rest }) := by
  have hcnt : (consumed (wireExt l).length s).work.cnt = BitVec.ofNat 64 (wireExt l).length := by
    rw [consumed_work, hc]
    exact BitVec.zero_add _
  rw [execLdecs_fExt hp, ← wireExt_length, onStream_append hs, finishLength_wire h, hcnt]
  exact ⟨_, rfl⟩

/-- LDECS in F_EXT with fewer bytes than its slot announces holds (R38). -/
theorem execLdecs_short {len7 : BitVec 7} {s : State} (hp : s.phase = .fExt) (h : s.strm.length < extBytes len7) :
    execLdecs len7 s = .next (held s) := by
  rw [execLdecs_fExt hp, onStream_short _ h, held]

/-- Settles O14: F_EXT's step with its bytes there and without them, and the issue that enters F_EXT. -/
theorem ldecsResolvesLength : Obligations.LdecsResolvesLength := by
  refine fun s => ⟨fun _ _ => execLdecs_wire, fun _ => execLdecs_short, fun len7 hp => ?_⟩
  exact execLdecs_enters (by rw [hp]; decide) len7

end Sys2Proof.Machine
end

section
/-! PROOFS. The masking engine of 42_masking.md: ApplyMask byte by byte and its laws, the command MASK that answers with it,
and the draw that keys an FENC. -/

namespace Sys2Proof

/-- Four bytes are those of a masking key. -/
theorem MaskKey.exists_toBytes {bs : Bytes} (h : bs.length = 4) : ∃ k : MaskKey, bs = k.toBytes := by
  cases hk : MaskKey.ofBytes? bs with
  | none => exact absurd h (MaskKey.ofBytes?_eq_none.mp hk)
  | some k => exact ⟨k, MaskKey.ofBytes?_eq_some.mp hk⟩

namespace Machine

/-! ### ApplyMask (R76, R79) -/

theorem applyMask_toBytes (p : Bytes) (k : MaskKey) : applyMask p k.toBytes = some (maskedBytes k p) :=
  congrArg some (xorMask_eq_maskedBytes k p)

theorem applyMask_keyLength (p : Bytes) {k : Bytes} (h : k.length ≠ 4) : applyMask p k = none := by
  rw [applyMask, MaskKey.ofBytes?_eq_none.mpr h]

/-- ApplyMask undoes the mask of its key. -/
theorem applyMask_maskedBytes (p : Bytes) (k : MaskKey) : applyMask (maskedBytes k p) k.toBytes = some p :=
  congrArg some (xorMask_maskedBytes k p)

theorem maskedBytes_getD (k : MaskKey) {p : Bytes} {j : Nat} (h : j < p.length) :
    (maskedBytes k p).getD j 0 = p.getD j 0 ^^^ k.toBytes.getD (j % 4) 0 := by
  have h' : j < (maskedBytes k p).length := by rwa [maskedBytes_length]
  rw [List.getD_eq_getElem _ _ h', List.getD_eq_getElem _ _ h]
  exact List.getElem_mapIdx

/-- Byte `i` of a key rotated by `n` is the byte the unrotated key has `n` further on. -/
theorem rotated_getD {k k' : MaskKey} {n : Nat} (h : k.toBytes.rotate (n % 4) = k'.toBytes) (i : Nat) :
    k'.toBytes.getD (i % 4) 0 = k.toBytes.getD ((i + n) % 4) 0 := by
  have hi : i % 4 < k.toBytes.length := Nat.mod_lt _ (by decide)
  rw [← h, List.getD_eq_getElem?_getD, List.getElem?_rotate hi, ← List.getD_eq_getElem?_getD, MaskKey.toBytes_length,
    ← Nat.add_mod]

/-- A payload goes on being masked where its first piece ends, by the key rotated by that piece's length. -/
theorem maskedBytes_append {k k' : MaskKey} {p : Bytes} (h : k.toBytes.rotate (p.length % 4) = k'.toBytes) (q : Bytes) :
    maskedBytes k (p ++ q) = maskedBytes k p ++ maskedBytes k' q := by
  simp only [maskedBytes, List.mapIdx_append, rotated_getD h]

/-- Settles O58: a key of four bytes is a masking key, and then ApplyMask is the cyclic xor of R76. -/
theorem applyMaskOfEveryKey : Obligations.ApplyMaskOfEveryKey := by
  refine fun p k => ⟨applyMask_keyLength p, fun h => ?_⟩
  obtain ⟨key, rfl⟩ := MaskKey.exists_toBytes h
  exact ⟨_, applyMask_toBytes p key, maskedBytes_length key p, applyMask_maskedBytes p key, fun _ => maskedBytes_getD key⟩

/-- Settles O18: the rotated key is a masking key too, and masks the second piece. -/
theorem maskLaws : Obligations.MaskLaws := by
  intro p q k h
  obtain ⟨key, rfl⟩ := MaskKey.exists_toBytes h
  obtain ⟨turned, ht⟩ := MaskKey.exists_toBytes ((List.length_rotate key.toBytes (p.length % 4)).trans h)
  refine ⟨maskedBytes key p, maskedBytes turned q, applyMask_toBytes p key, applyMask_maskedBytes p key,
    maskedBytes_length key p, ?_, ?_⟩
  · rw [ht, applyMask_toBytes]
  · rw [applyMask_toBytes, maskedBytes_append ht]

/-! ### MASK (R77) -/

/-- MASK answers what ApplyMask gives. -/
theorem execMask_some {s : State} {out : Bytes} (h : applyMask s.ops.data s.ops.key = some out) :
    execMask s = .next (completed { s.res with data := out } s) := by
  rw [execMask, h]
  rfl

/-- MASK raises what ApplyMask raises. -/
theorem execMask_none {s : State} (h : applyMask s.ops.data s.ops.key = none) : execMask s = .next (errored 3 s) := by
  rw [execMask, h]
  rfl

/-- Settles O17: MASK's word is its encoding, and the command ends as ApplyMask does. -/
theorem maskXorsCyclically : Obligations.MaskXorsCyclically := by
  refine ⟨decodeEncodeAgree .mask rfl, fun s => ?_⟩
  obtain ⟨hnone, hsome⟩ := applyMaskOfEveryKey s.ops.data s.ops.key
  refine ⟨fun h => ?_, fun h => execMask_none (hnone h)⟩
  obtain ⟨out, hout, hlen, -, hbyte⟩ := hsome h
  exact ⟨out, execMask_some hout, hlen, hbyte⟩

/-! ### The drawn key of FENC (R78) -/

/-- Settles O20: FENC masks with the draw it takes, the one waiting first or else the free one. -/
theorem fencTakesOneDraw : Obligations.FencTakesOneDraw := by
  intro opc fin s hl
  have hexec : exec (.fenc opc fin true false) s =
      .next (completed { s.res with data := wireFrame fin 0 opc (some (draw4 s).1) s.ops.data } (draw4 s).2) :=
    execFenc_drawn (Nat.lt_of_le_of_lt hl s.maxPayload.isLt) opc fin
  refine ⟨fun k draws hq => ?_, fun hfree => ?_⟩
  · rw [hexec, draw4_queued hq]
  · rw [hexec, draw4_free hfree]

end Machine

end Sys2Proof
end

section
/-! PROOFS. The phases of FDECS one by one (43_frame_codec.md R83, R85): the sixteen base header rows, F_EXT, F_KEY and F_PAY
with the bytes each needs, and the refusal of R89. -/

namespace Sys2Proof.Machine

/-! ### Lengths and consumed bytes -/

/-- A length the wire can carry (00_scope.md R8) is the number in its register. -/
theorem toNat_ofNat_of_lt_bound {l : Nat} (h : l < 2 ^ 63) : (BitVec.ofNat 64 l).toNat = l := by
  rw [BitVec.toNat_ofNat, Nat.mod_eq_of_lt (by omega)]

theorem ofNat_ne_zero_of_lt_bound {l : Nat} (h : l < 2 ^ 63) (h0 : l ≠ 0) : BitVec.ofNat 64 l ≠ 0 := fun e =>
  h0 ((toNat_ofNat_of_lt_bound h).symm.trans (by rw [e]; rfl))

section
variable {a rest : Bytes} {s : State} (h : s.strm = a ++ rest)
include h

theorem consumed_strm_append : (consumed a.length s).strm = rest := by
  rw [consumed_strm, h, List.drop_left]

/-- The bytes at the head of STRM are there to be pulled (20_memory.md R37). -/
theorem onStream_ahead (k : Bytes → State → Result) : onStream a.length s k = k a (consumed a.length s) := by
  rw [onStream_enough k (by simp [h]), h, List.take_left]

end

/-- The results hold the count of bytes modulo 2^64 (10_state.md R24). -/
theorem frameResults_count {n m : Nat} (h : BitVec.ofNat 64 n = BitVec.ofNat 64 m) (r : ResRegs) (fin : Bool)
    (opc : BitVec 4) (p : Bytes) : frameResults r fin opc p n = frameResults r fin opc p m := by
  simp only [frameResults, h]

theorem frameEnd_count {n m : Nat} (h : BitVec.ofNat 64 n = BitVec.ofNat 64 m) (txt fin : Bool) (opc : BitVec 4) (p : Bytes)
    (s : State) : frameEnd txt fin opc p n s = frameEnd txt fin opc p m s := by
  simp only [frameEnd, frameResults_count h]

/-- The end of a frame does not show the flags of the phase step that pulled its bytes. -/
theorem frameEnd_consumed {a rest : Bytes} {s : State} (h : s.strm = a ++ rest) (txt fin : Bool) (opc : BitVec 4) (p : Bytes)
    (n : Nat) (w : WorkRegs) : frameEnd txt fin opc p n { consumed a.length s with work := w } =
      frameEnd txt fin opc p n { s with work := w, strm := rest } := by
  unfold frameEnd
  split <;> simp [errored, completed, consumed, h]

theorem closeSplit_empty (opc : BitVec 4) : closeSplit opc 0 [] = some (0, false, []) := by
  simp [closeSplit]

/-- After the key of an empty payload the frame completes: no close code to split off, no text to refuse (R86, R87). -/
theorem afterKey_empty {s : State} (h : s.work.plen = 0) (next : Phase → State → Result) (txt : Bool) :
    afterKey next txt s = .next (completed (frameResults s.res s.work.fin s.work.opc [] s.work.cnt.toNat)
      { s with work := { s.work with pay := [] } }) := by
  have ht : textRefused txt s.work.opc [] = false := by simp [textRefused, utf8Valid]
  simp only [afterKey, finishFrame, h, closeSplit_empty, ht, Bool.false_eq_true, if_false, complete_eq]
  simp [decodedResults, frameResults]

theorem afterKey_payload {s : State} (h : s.work.plen ≠ 0) (next : Phase → State → Result) (txt : Bool) :
    afterKey next txt s = next .fPay s := if_neg h

theorem afterLength_overCapacity {v : BitVec 64} {s : State} (h : s.maxPayload.val < v.toNat)
    (next : Phase → State → Result) (txt : Bool) : afterLength next txt v s = .refused .payloadOverCapacity := if_pos h

/-! ### F_HDR: the sixteen base header rows (R56) -/

/-- A header row runs F_HDR on its fields, with its own opcode. -/
theorem exec_headerRow {row : BitVec 4 × (Bool → BitVec 3 → Bool → BitVec 7 → Instr)} (h : row ∈ headerRows)
    (fin : Bool) (rsv : BitVec 3) (msk : Bool) (len7 : BitVec 7) (s : State) :
    exec (row.2 fin rsv msk len7) s = headerPhase streamNext (cmdTxt s.cmd) ⟨fin, rsv, row.1, msk, len7⟩ s := by
  unfold headerRows at h
  fin_cases h <;> rfl

section
variable {fin msk : Bool} {rsv : BitVec 3} {opc : BitVec 4} {len7 : BitVec 7} (next : Phase → State → Result) (txt : Bool)

theorem headerPhase_sentinel (h : extBytes len7 ≠ 0) (s : State) : headerPhase next txt ⟨fin, rsv, opc, msk, len7⟩ s =
    next .fExt (headerLatched ⟨fin, rsv, opc, msk, len7⟩ s) := if_neg h

/-- A slot of 125 or less is the length. -/
theorem headerPhase_inline (h : len7.toNat ≤ 125) (s : State) : headerPhase next txt ⟨fin, rsv, opc, msk, len7⟩ s =
    afterLength next txt (BitVec.ofNat 64 len7.toNat) (headerLatched ⟨fin, rsv, opc, msk, len7⟩ s) := by
  rw [BitVec.ofNat_toNat]
  exact if_pos (extBytes_eq_zero_iff.mpr h)

/-- The state F_HDR leaves when its slot is the length. -/
def lengthLatched (f : HeaderFields) (s : State) : State :=
  { headerLatched f s with work := { (headerLatched f s).work with plen := BitVec.ofNat 64 f.len7.toNat } }

/-- A slot that fits: F_KEY for a masked frame, else what follows the key. -/
theorem headerPhase_inline_fits {s : State} (h : len7.toNat ≤ 125) (hm : len7.toNat ≤ s.maxPayload.val) :
    headerPhase next txt ⟨fin, rsv, opc, msk, len7⟩ s =
      if msk then next .fKey (lengthLatched ⟨fin, rsv, opc, msk, len7⟩ s)
      else afterKey next txt (lengthLatched ⟨fin, rsv, opc, msk, len7⟩ s) := by
  rw [headerPhase_inline next txt h]
  refine afterLength_fits txt ?_
  rw [toNat_ofNat_of_lt_bound (by omega)]
  exact Nat.not_lt.mpr hm

end

/-- Settles O25: a row is F_HDR on its fields, which goes on by LEN7, MASK and the length. -/
theorem headerRowsRun : Obligations.HeaderRowsRun := by
  intro row hrow fin rsv msk len7 s
  rw [exec_headerRow hrow]
  refine ⟨?_, ?_, fun h hm hk => ?_, fun h hm hk h0 => ?_, ?_⟩
  · rintro rfl
    exact headerPhase_sentinel (len7 := 126) _ _ (by decide) s
  · rintro rfl
    exact headerPhase_sentinel (len7 := 127) _ _ (by decide) s
  · subst hk
    exact headerPhase_inline_fits _ _ h hm
  · subst hk
    have hne : BitVec.ofNat 64 len7.toNat ≠ 0 :=
      ofNat_ne_zero_of_lt_bound (by omega) fun e => h0 (BitVec.eq_of_toNat_eq e)
    refine (headerPhase_inline_fits _ _ h hm).trans ((afterKey_payload hne ..).trans ?_)
    rw [streamNext_eq, phaseNeed, lengthLatched, toNat_ofNat_of_lt_bound (by omega)]
    rfl
  · rintro rfl rfl
    exact (headerPhase_inline_fits (len7 := 0) _ _ (by decide) (Nat.zero_le _)).trans
      (afterKey_empty (s := lengthLatched ⟨fin, rsv, row.1, false, 0⟩ s) rfl streamNext _)

/-! ### F_EXT, F_KEY and F_PAY with their bytes at the head of STRM -/

section
variable {txt : Bool} {rest : Bytes} {s : State}

theorem execFdecs_fExt {ext : Bytes} (hp : s.phase = .fExt) (hl : ext.length = extBytes s.work.len7)
    (hs : s.strm = ext ++ rest) : execFdecs txt s = extPhase streamNext txt ext (consumed ext.length s) := by
  rw [← onStream_ahead hs (extPhase streamNext txt), hl]
  simp only [execFdecs, hp, phaseNeed]

theorem execFdecs_fKey {k : MaskKey} (hp : s.phase = .fKey) (hs : s.strm = k.toBytes ++ rest) :
    execFdecs txt s = afterKey streamNext txt { consumed 4 s with work := { (consumed 4 s).work with key := k } } := by
  have e := onStream_ahead hs (keyPhase streamNext txt)
  rw [keyPhase, MaskKey.ofPulled_toBytes] at e
  rw [execFdecs, hp]
  exact e

/-- F_PAY ends the frame, its bytes counted. -/
theorem execFdecs_fPay {raw : Bytes} {c : Nat} (hp : s.phase = .fPay) (hl : s.work.plen.toNat = raw.length)
    (hs : s.strm = raw ++ rest) (hc : s.work.cnt = BitVec.ofNat 64 c) :
    ∃ w, execFdecs txt s = .next (frameEnd txt s.work.fin s.work.opc (unmasked s.work raw) (c + raw.length)
      { s with work := w, strm := rest }) := by
  have e : execFdecs txt s = payPhase txt raw (consumed raw.length s) := by
    rw [← onStream_ahead hs (payPhase txt), ← hl]
    simp only [execFdecs, hp, phaseNeed]
  obtain ⟨w, h⟩ := payPhase_frameEnds (s := consumed raw.length s) hl txt
  have hn : BitVec.ofNat 64 (consumed raw.length s).work.cnt.toNat = BitVec.ofNat 64 (c + raw.length) := by
    rw [BitVec.ofNat_toNat, BitVec.setWidth_eq, consumed_work, hc, BitVec.ofNat_add]
  rw [frameEnd_count hn, frameEnd_consumed hs] at h
  exact ⟨w, e.trans h⟩

end

/-- Settles O26: each phase pulls its bytes from the head of STRM and goes on. -/
theorem fdecsPhases : Obligations.FdecsPhases := by
  refine fun txt s => ⟨fun hp => execFdecs_enters hp txt, ?_, ?_, ?_, ?_⟩
  · intro l rest hp hlo hm h7 hs
    have hl : l < 2 ^ 63 := Nat.lt_of_le_of_lt hm s.maxPayload.isLt
    have hlen := toNat_ofNat_of_lt_bound hl
    have hr : resolveLen s.work.len7 (wireExt l) = some (BitVec.ofNat 64 l) := h7 ▸ resolveLen_wire hl
    refine (execFdecs_fExt hp (h7 ▸ wireExt_length l) hs).trans ((extPhase_resolved (by exact hr)).trans ?_)
    rw [afterLength_fits txt (by rw [hlen]; exact Nat.not_lt.mpr hm), consumed_work]
    cases hk : s.work.mask with
    | true => rfl
    | false =>
      refine (afterKey_payload (by exact ofNat_ne_zero_of_lt_bound hl (by omega)) ..).trans ?_
      rw [streamNext_eq, phaseNeed, hlen]
      rfl
  · intro k rest hp h0 hs
    exact (execFdecs_fKey hp hs).trans (afterKey_payload (by exact h0) ..)
  · intro k rest hp h0 hs
    have hn : BitVec.ofNat 64 (s.work.cnt + BitVec.ofNat 64 4).toNat = BitVec.ofNat 64 (s.work.cnt.toNat + 4) := by
      rw [BitVec.ofNat_toNat, BitVec.setWidth_eq, BitVec.ofNat_add, BitVec.ofNat_toNat, BitVec.setWidth_eq]
    exact (execFdecs_fKey hp hs).trans ((afterKey_empty (by exact h0) ..).trans
      (congrArg (fun r => Host.Outcome.next (completed r _)) (frameResults_count hn ..)))
  · intro raw rest hp _ hl hs
    obtain ⟨w, e⟩ := execFdecs_fPay (txt := txt) (c := s.work.cnt.toNat) hp hl.symm hs (by simp)
    rw [unmasked, xorMask_eq_maskedBytes] at e
    exact ⟨w, e⟩

/-! ### Lengths over capacity (R89) -/

/-- Settles O24: the length resolves in each of the three places, and does not fit. -/
theorem overCapacityRefused : Obligations.OverCapacityRefused := by
  intro l rest s hm hl
  have hcap : s.maxPayload.val < (BitVec.ofNat 64 l).toNat := by rwa [toNat_ofNat_of_lt_bound hl]
  refine ⟨fun txt fin rsv opc msk hs => ?_, fun txt hp h7 hs => ?_, fun row hrow fin rsv msk h => ?_⟩
  · rw [List.append_assoc] at hs
    obtain ⟨next, w, -, -, e⟩ := execFdecb_ext (txt := txt) (wireExt_length l) hs
    exact e.trans ((extPhase_resolved (resolveLen_wire hl)).trans (afterLength_overCapacity (by exact hcap) ..))
  · have hr : resolveLen s.work.len7 (wireExt l) = some (BitVec.ofNat 64 l) := h7 ▸ resolveLen_wire hl
    exact (execFdecs_fExt hp (h7 ▸ wireExt_length l) hs).trans
      ((extPhase_resolved (by exact hr)).trans (afterLength_overCapacity (by exact hcap) ..))
  · obtain ⟨h7, -⟩ := wire_inline h
    have hlen : (wireLen7 l).toNat = l := by rw [h7, BitVec.toNat_ofNat, Nat.mod_eq_of_lt (by omega)]
    rw [exec_headerRow hrow, headerPhase_inline _ _ (hlen.trans_le h), hlen]
    exact afterLength_overCapacity (by exact hcap) ..

end Sys2Proof.Machine
end

section
/-! PROOFS. Whole frames (43_frame_codec.md R80 to R85, R92): what FENC writes, and what FDECB of a buffer and FDECS of a
stream make of a frame that is there. -/

namespace Sys2Proof.Machine

/-! ### FENC (R80, R81) -/

theorem keyFieldsLegal_of_ne {msk ksup : Bool} (h : ¬ (ksup = true ∧ msk = false)) : keyFieldsLegal msk ksup = true :=
  (Bool.eq_false_or_eq_true _).resolve_right (keyFieldsLegal_eq_false.not.mpr h)

/-- The words of FENC's row carry its fields (30_encoding.md R60), which R61 checks. -/
theorem decodeCommand_fencRow {w : BitVec 32} (h : w &&& 0xFFFFF80F = 0x00000006) : decodeCommand w =
    if cmdKsup w = true ∧ cmdMsk w = false then .error .keyWithoutMask
    else .ok (.fenc (cmdOpc w) (cmdFin w) (cmdMsk w) (cmdKsup w)) := by
  have hw := rowFenc_hits.mp (beq_iff_eq.mpr h)
  have hd := decodeCommand_fencWord (cmdOpc w) (cmdFin w) (cmdMsk w) (cmdKsup w)
  rw [← hw] at hd
  rw [hd]
  by_cases hk : cmdKsup w = true ∧ cmdMsk w = false
  · rw [if_pos hk, if_neg (Bool.eq_false_iff.mp (keyFieldsLegal_eq_false.mpr hk))]
  · rw [if_neg hk, if_pos (keyFieldsLegal_of_ne hk)]

/-- FENC with a drawn key changes the draws only. -/
theorem execFenc_drawn_frame {s : State} (h : s.ops.data.length < 2 ^ 63) (opc : BitVec 4) (fin : Bool) :
    ∃ k draws n, execFenc opc fin true false s =
      .next (completed { s.res with data := wireFrame fin 0 opc (some k) s.ops.data }
        { s with keyDraws := draws, drawCount := n }) := by
  obtain ⟨draws, n, hd⟩ := draw4_frame s
  exact ⟨(draw4 s).1, draws, n, by rw [execFenc_drawn h, hd]⟩

/-- Settles O19: FENC's row, and the frame of each key choice. -/
theorem fencBuildsTheWireFrame : Obligations.FencBuildsTheWireFrame := by
  refine ⟨fun w h => decodeCommand_fencRow h, fun opc fin s hl => ?_⟩
  have hlt : s.ops.data.length < 2 ^ 63 := Nat.lt_of_le_of_lt hl s.maxPayload.isLt
  exact ⟨execFenc_unmasked hlt opc fin false, fun k hk => execFenc_supplied hlt hk opc fin,
    fun hk => execFenc_keyLength hlt hk opc fin, execFenc_drawn_frame hlt opc fin⟩

theorem wireHeader_empty (fin msk : Bool) (opc : BitVec 4) : wireHeader fin 0 opc msk (wireLen7 0) =
    [BitVec.ofBool fin ++ (0 : BitVec 3) ++ opc, if msk then 0x80 else 0x00] := by
  cases msk <;> rfl

/-- The frame of an empty payload is its two header bytes and its key (R81). -/
theorem wireFrame_empty (fin : Bool) (opc : BitVec 4) (key : Option MaskKey) : wireFrame fin 0 opc key [] =
    [BitVec.ofBool fin ++ (0 : BitVec 3) ++ opc, if key.isSome then 0x80 else 0x00] ++ wireBody key [] := by
  rw [← wireHeader_empty]
  rfl

/-- Settles O21: FENC of the empty payload, whose frame is written out. -/
theorem fencEmptyPayload : Obligations.FencEmptyPayload := by
  intro opc fin s hs
  have hlt : s.ops.data.length < 2 ^ 63 := by rw [hs]; decide
  refine ⟨?_, fun a b c d hk => ?_, fun hk => execFenc_keyLength hlt hk opc fin, ?_⟩
  · have e := execFenc_unmasked hlt opc fin false
    rw [hs, wireFrame_empty] at e
    exact e
  · have e := execFenc_supplied (k := ⟨a, b, c, d⟩) hlt hk opc fin
    rw [hs, wireFrame_empty] at e
    exact e
  · obtain ⟨k, draws, n, e⟩ := execFenc_drawn_frame hlt opc fin
    rw [hs, wireFrame_empty] at e
    exact ⟨k, draws, n, e⟩

/-! ### Buffer mode (R84) -/

/-- Settles O22: FDECB of a wire frame ends as the frame says. -/
theorem fdecbDecodesWireFrames : Obligations.FdecbDecodesWireFrames :=
  fun _ _ _ _ _ _ _ _ hl hs => execFdecb_wireFrame hl hs

/-- Settles O29: FENC writes a wire frame, and FDECB reads wire frames. -/
theorem bufferRoundTrip : Obligations.BufferRoundTrip := by
  intro opc fin msk ksup s _ hl hk
  obtain ⟨key, draws, n, e⟩ := execFenc_wireFrame (Nat.lt_of_le_of_lt hl s.maxPayload.isLt) hk opc fin
  exact ⟨_, e, rfl, fun txt rest u hm hu => execFdecb_wireFrame (hm ▸ hl) hu⟩

/-! ### Stream mode (R85): runs of an FDECS in flight -/

/-- An FDECS in flight with nothing scheduled: the engine has every move. -/
structure Decoding (txt : Bool) (s : State) : Prop where
  busy : s.status.busy = true
  command : decodeCommand s.cmd = .ok (.fdecs txt)
  inputs : s.inputs = []

theorem Decoding.step_engine {txt : Bool} {s : State} (h : Decoding txt s) : step s = engineFrame txt s :=
  (step_engine_empty h.inputs).trans (engineStep_fdecs h.busy h.command)

/-- In a phase after F_HDR the engine's move is the command's own. -/
theorem Decoding.step_exec {txt : Bool} {s : State} (h : Decoding txt s) (hp : s.phase ∈ [Phase.fExt, .fKey, .fPay]) :
    step s = execFdecs txt s :=
  h.step_engine.trans (engineFrame_exec (.inl hp))

/-- The idle engine keeps its state (notes/assumptions/4.md). -/
theorem runsTo_idle {s : State} (hb : s.status.busy = false) (hi : s.inputs = []) (n : Nat) : runsTo n s s :=
  runsTo_self ((step_engine_empty hi).trans (engineStep_idle hb)) n

@[simp] theorem frameEnd_busy (txt fin : Bool) (opc : BitVec 4) (p : Bytes) (n : Nat) (s : State) :
    (frameEnd txt fin opc p n s).status.busy = false := by
  unfold frameEnd; split <;> rfl

@[simp] theorem frameEnd_inputs (txt fin : Bool) (opc : BitVec 4) (p : Bytes) (n : Nat) (s : State) :
    (frameEnd txt fin opc p n s).inputs = s.inputs := by
  unfold frameEnd; split <;> rfl

/-- `o`, and `n` more steps, end the decode of a frame with payload `p` of which `c` bytes are consumed in all; `rest` is
left in STRM, and only working registers change besides. -/
def StreamEnds (n : Nat) (txt fin : Bool) (opc : BitVec 4) (p : Bytes) (c : Nat) (rest : Bytes) (s : State) (o : Result) :
    Prop :=
  ∃ w u, o = .next u ∧ runsTo n u (frameEnd txt fin opc p c { s with work := w, strm := rest })

section
variable {n c : Nat} {txt fin : Bool} {opc : BitVec 4} {p rest : Bytes} {s : State}

/-- An end stays the end. -/
theorem StreamEnds.of_ended {o : Result} {w : WorkRegs} (hi : s.inputs = [])
    (h : o = .next (frameEnd txt fin opc p c { s with work := w, strm := rest })) :
    StreamEnds n txt fin opc p c rest s o := by
  refine ⟨w, _, h, runsTo_idle (frameEnd_busy ..) ?_ n⟩
  rw [frameEnd_inputs]
  exact hi

theorem StreamEnds.of_frameEnds {o : Result} (hi : s.inputs = []) (hs : s.strm = rest)
    (h : FrameEnds txt fin opc p c s o) : StreamEnds n txt fin opc p c rest s o := by
  subst hs
  obtain ⟨w, e⟩ := h
  exact .of_ended hi e

/-- The step after `o` counts. -/
theorem StreamEnds.of_step {o : Result} {u : State} (ho : o = .next u) (h : StreamEnds n txt fin opc p c rest s (step u)) :
    StreamEnds (n + 1) txt fin opc p c rest s o := by
  obtain ⟨w, v, hv, hr⟩ := h
  exact ⟨w, u, ho, (run_next hv).trans hr⟩

/-- PHASE, HOLD, STRM and the working registers of the state the decode goes on from do not show in its end. -/
theorem StreamEnds.of_moved {o : Result} {u : State}
    (hu : u = { s with phase := u.phase, status := { s.status with hold := u.status.hold }, strm := u.strm, work := u.work })
    (h : StreamEnds n txt fin opc p c rest u o) : StreamEnds n txt fin opc p c rest s o := by
  obtain ⟨v, t, ho, hr⟩ := h
  refine ⟨v, t, ho, ?_⟩
  rw [hu] at hr
  unfold frameEnd at hr ⊢
  split at hr <;> exact hr

end

theorem afterKey_empty_frameEnds {c : Nat} {s : State} (h : s.work.plen = 0) (hc : s.work.cnt = BitVec.ofNat 64 c)
    (next : Phase → State → Result) (txt : Bool) :
    FrameEnds txt s.work.fin s.work.opc [] c s (afterKey next txt s) := by
  have hn : BitVec.ofNat 64 s.work.cnt.toNat = BitVec.ofNat 64 c := by rw [BitVec.ofNat_toNat, BitVec.setWidth_eq, hc]
  obtain ⟨w, e⟩ := finishFrame_frameEnds (s := { s with work := { s.work with pay := [] } }) rfl (by simp [h]) txt
  rw [frameEnd_count hn] at e
  exact ⟨w, (if_pos h).trans e⟩

/-- After the key: F_PAY, or the end of an empty frame. -/
theorem afterKey_streamEnds {n c : Nat} {txt : Bool} {raw rest : Bytes} {s : State} (hd : Decoding txt s)
    (hs : s.strm = raw ++ rest) (hl : s.work.plen.toNat = raw.length) (hc : s.work.cnt = BitVec.ofNat 64 c) :
    StreamEnds (n + 1) txt s.work.fin s.work.opc (unmasked s.work raw) (c + raw.length) rest s
      (afterKey streamNext txt s) := by
  by_cases h0 : s.work.plen = 0
  · obtain rfl : raw = [] := List.length_eq_zero_iff.mp (hl.symm.trans (by rw [h0]; rfl))
    have hu : unmasked s.work [] = [] := List.length_eq_zero_iff.mp (unmasked_length ..)
    rw [hu]
    exact .of_frameEnds hd.inputs hs (afterKey_empty_frameEnds h0 hc ..)
  · have hw : Decoding txt (waiting .fPay s.work.plen.toNat s) := ⟨hd.busy, hd.command, hd.inputs⟩
    obtain ⟨w, e⟩ := execFdecs_fPay (s := waiting .fPay s.work.plen.toNat s) rfl hl hs hc
    have h := StreamEnds.of_ended (n := n) hw.inputs ((hw.step_exec (by simp)).trans e)
    exact .of_step (afterKey_payload h0 ..) (.of_moved rfl h)

/-- F_KEY pulls the key of a masked payload. -/
theorem fKey_streamEnds {n c : Nat} {txt : Bool} {k : MaskKey} {p rest : Bytes} {s : State} (hd : Decoding txt s)
    (hp : s.phase = .fKey) (hs : s.strm = wireBody (some k) p ++ rest) (hm : s.work.mask = true)
    (hl : s.work.plen.toNat = p.length) (hc : s.work.cnt = BitVec.ofNat 64 c) :
    StreamEnds (n + 1) txt s.work.fin s.work.opc p (c + (wireBody (some k) p).length) rest s (step s) := by
  rw [wireBody, List.append_assoc] at hs
  have hn : c + (wireBody (some k) p).length = c + 4 + (maskedBytes k p).length := by
    rw [wireBody, List.length_append, MaskKey.toBytes_length, Nat.add_assoc]
  have hstrm : (consumed 4 s).strm = maskedBytes k p ++ rest := consumed_strm_append hs
  have hcnt : (consumed 4 s).work.cnt = BitVec.ofNat 64 (c + 4) := by rw [consumed_work, hc, BitVec.ofNat_add]
  have h := afterKey_streamEnds (n := n) (s := { consumed 4 s with work := { (consumed 4 s).work with key := k } })
    (txt := txt) ⟨hd.busy, hd.command, hd.inputs⟩ hstrm (hl.trans (maskedBytes_length k p).symm) hcnt
  rw [unmasked_maskedBytes (w := (consumed 4 s).work) hm] at h
  rw [hd.step_exec (by simp [hp]), execFdecs_fKey hp hs, hn]
  exact .of_moved rfl h

/-- What follows a resolved length that fits: the key of a masked frame and the payload. -/
theorem afterLength_streamEnds {n c : Nat} {txt : Bool} {key : Option MaskKey} {p rest : Bytes} {s : State}
    (hd : Decoding txt s) (hs : s.strm = wireBody key p ++ rest) (hm : s.work.mask = key.isSome)
    (hl : p.length ≤ s.maxPayload.val) (hc : s.work.cnt = BitVec.ofNat 64 c) :
    StreamEnds (n + 2) txt s.work.fin s.work.opc p (c + (wireBody key p).length) rest s
      (afterLength streamNext txt (BitVec.ofNat 64 p.length) s) := by
  have hv := toNat_ofNat_of_lt_bound (Nat.lt_of_le_of_lt hl s.maxPayload.isLt)
  rw [afterLength_fits txt (by rw [hv]; exact Nat.not_lt.mpr hl)]
  cases key with
  | none =>
    have h := afterKey_streamEnds (n := n + 1) (txt := txt)
      (s := { s with work := { s.work with plen := BitVec.ofNat 64 p.length } })
      ⟨hd.busy, hd.command, hd.inputs⟩ hs hv hc
    rw [show unmasked _ (wireBody none p) = p from if_neg (by simp [hm])] at h
    rw [if_neg (by simp [hm])]
    exact .of_moved rfl h
  | some k =>
    have h := fKey_streamEnds (n := n)
      (s := waiting .fKey 4 { s with work := { s.work with plen := BitVec.ofNat 64 p.length } })
      ⟨hd.busy, hd.command, hd.inputs⟩ rfl hs hm hv hc
    rw [if_pos (show s.work.mask = true from hm)]
    exact .of_step rfl (.of_moved rfl h)

/-- F_EXT resolves the length of the frame. -/
theorem fExt_streamEnds {n c : Nat} {txt : Bool} {key : Option MaskKey} {p rest : Bytes} {s : State}
    (hd : Decoding txt s) (hp : s.phase = .fExt) (hs : s.strm = wireExt p.length ++ (wireBody key p ++ rest))
    (h7 : s.work.len7 = wireLen7 p.length) (hm : s.work.mask = key.isSome) (hl : p.length ≤ s.maxPayload.val)
    (hc : s.work.cnt = BitVec.ofNat 64 c) :
    StreamEnds (n + 2) txt s.work.fin s.work.opc p (c + (wireExt p.length).length + (wireBody key p).length) rest s
      (step s) := by
  have hr : resolveLen s.work.len7 (wireExt p.length) = some (BitVec.ofNat 64 p.length) :=
    h7 ▸ resolveLen_wire (Nat.lt_of_le_of_lt hl s.maxPayload.isLt)
  have hcnt : (consumed (wireExt p.length).length s).work.cnt = BitVec.ofNat 64 (c + (wireExt p.length).length) := by
    rw [consumed_work, hc, BitVec.ofNat_add]
  have h := afterLength_streamEnds (n := n) (txt := txt) (s := consumed (wireExt p.length).length s)
    ⟨hd.busy, hd.command, hd.inputs⟩ (consumed_strm_append hs) hm hl hcnt
  rw [hd.step_exec (by simp [hp]), execFdecs_fExt hp (h7 ▸ wireExt_length p.length) hs, extPhase_resolved (by exact hr)]
  exact .of_moved rfl h

/-- TXT is the bit of the word in CMD. -/
theorem cmdTxt_of_fdecs {w : BitVec 32} {txt : Bool} (h : decodeCommand w = .ok (.fdecs txt)) : cmdTxt w = txt := by
  obtain ⟨e, -⟩ := decodedWordIsItsEncoding (.command w) (.fdecs txt) h
  rw [← Code.command.inj e]
  exact cmdTxt_commandWord ..

/-- A length above 125 takes a sentinel (30_encoding.md R53). -/
theorem extBytes_wireLen7_ne_zero {l : Nat} (h : ¬ l ≤ 125) : extBytes (wireLen7 l) ≠ 0 := by
  rcases wire_cases l with ⟨h5, -, -⟩ | ⟨-, -, h7, -⟩ | ⟨-, h7, -⟩
  · exact absurd h5 h
  · rw [h7]; decide
  · rw [h7]; decide

/-- F_HDR runs on the fields of a wire header at the head of STRM (R83). -/
theorem Decoding.step_header {txt fin msk : Bool} {rsv : BitVec 3} {opc : BitVec 4} {len7 : BitVec 7} {ahead : Bytes}
    {s : State} (hd : Decoding txt s) (hp : s.phase = .fHdr) (hs : s.strm = wireHeader fin rsv opc msk len7 ++ ahead) :
    step s = headerPhase streamNext txt ⟨fin, rsv, opc, msk, len7⟩
      (latchHeader (headerWord fin rsv opc msk len7) (consumed 2 s)) := by
  have hc : { consumed 2 s with strm := ahead } = consumed 2 s := by
    rw [← show (consumed 2 s).strm = ahead from consumed_strm_append hs]
  have e := engineFrame_header (txt := txt) (tl := ahead) hp hs
  rw [hc, exec_decodeHeader, ← headerOfBytes_two, show [_, _] = wireHeader fin rsv opc msk len7 from rfl,
    headerOfBytes_wireHeader, unpackHdr_headerWord] at e
  rw [hd.step_engine, e, show cmdTxt (latchHeader _ (consumed 2 s)).cmd = txt from cmdTxt_of_fdecs hd.command]

/-- A whole frame, from F_HDR. -/
theorem fHdr_streamEnds {n : Nat} {txt fin : Bool} {rsv : BitVec 3} {opc : BitVec 4} {key : Option MaskKey}
    {p rest : Bytes} {s : State} (hd : Decoding txt s) (hp : s.phase = .fHdr) (hc : s.work.cnt = 0)
    (hs : s.strm = wireFrame fin rsv opc key p ++ rest) (hl : p.length ≤ s.maxPayload.val) :
    StreamEnds (n + 3) txt fin opc p (wireFrame fin rsv opc key p).length rest s (step s) := by
  rw [wireFrame, List.append_assoc, List.append_assoc] at hs
  have hn : (wireFrame fin rsv opc key p).length = 2 + (wireExt p.length).length + (wireBody key p).length := by
    rw [wireFrame, List.length_append, List.length_append]
    rfl
  have hstrm : (consumed 2 s).strm = wireExt p.length ++ (wireBody key p ++ rest) := consumed_strm_append hs
  have hcnt : (consumed 2 s).work.cnt = BitVec.ofNat 64 2 := by rw [consumed_work, hc]; rfl
  rw [hd.step_header hp hs, hn]
  by_cases h5 : p.length ≤ 125
  · obtain ⟨h7, hx⟩ := wire_inline h5
    have hlen : (wireLen7 p.length).toNat = p.length := by rw [h7, BitVec.toNat_ofNat, Nat.mod_eq_of_lt (by omega)]
    rw [hx] at hstrm ⊢
    rw [headerPhase_inline _ _ (hlen.trans_le h5), hlen]
    exact .of_moved rfl (afterLength_streamEnds (n := n + 1) ⟨hd.busy, hd.command, hd.inputs⟩ hstrm rfl hl hcnt)
  · rw [headerPhase_sentinel _ _ (extBytes_wireLen7_ne_zero h5)]
    exact .of_step rfl
      (.of_moved rfl (fExt_streamEnds (n := n) ⟨hd.busy, hd.command, hd.inputs⟩ rfl hstrm rfl rfl hl hcnt))

/-- With nothing in flight, an issue of FDECS enters F_HDR in its step. -/
theorem step_issue_fdecs {txt : Bool} {p : PortCmd} {s : State} (hb : s.status.busy = false) (hi : s.inputs = [.issue p])
    (hd : decodeCommand p.cw = .ok (.fdecs txt)) (hf : p.ops.fits s.maxPayload.val = true) :
    step s = .next (waiting .fHdr 2 (clearCount (latch p { s with inputs := [] }))) :=
  (step_issue_exec hb hi hf hd).trans (execFdecs_enters (s := latch p { s with inputs := [] }) rfl txt)

/-- An issued FDECS ends, within five steps, the frame at the head of STRM. -/
theorem runsTo_fdecs {txt fin : Bool} {rsv : BitVec 3} {opc : BitVec 4} {key : Option MaskKey} {d rest : Bytes}
    {p : PortCmd} {s : State} (hb : s.status.busy = false) (hi : s.inputs = [.issue p])
    (hd : decodeCommand p.cw = .ok (.fdecs txt)) (hf : p.ops.fits s.maxPayload.val = true)
    (hs : s.strm = wireFrame fin rsv opc key d ++ rest) (hl : d.length ≤ s.maxPayload.val) :
    ∃ w, runsTo 5 s (frameEnd txt fin opc d (wireFrame fin rsv opc key d).length
      { issued p s with work := w, strm := rest, inputs := [] }) := by
  have h := fHdr_streamEnds (n := 0) (s := waiting .fHdr 2 (clearCount (latch p { s with inputs := [] })))
    ⟨rfl, hd, rfl⟩ rfl rfl hs hl
  obtain ⟨w, u, hu, hr⟩ := StreamEnds.of_step (step_issue_fdecs hb hi hd hf)
    (StreamEnds.of_moved (s := { issued p s with inputs := [] }) rfl h)
  exact ⟨w, (run_next hu).trans hr⟩

/-- Settles O30: FENC writes a wire frame, and FDECS reads wire frames. -/
theorem streamRoundTrip : Obligations.StreamRoundTrip := by
  intro opc fin msk ksup s _ hl hk
  obtain ⟨key, draws, n, e⟩ := execFenc_wireFrame (Nat.lt_of_le_of_lt hl s.maxPayload.isLt) hk opc fin
  refine ⟨_, e, fun txt rest p u hm hb hi hd hf hu => ?_⟩
  exact runsTo_fdecs hb hi hd hf hu (hm ▸ hl)

end Sys2Proof.Machine
end

section
/-! PROOFS. Bytes that are no whole frame (43_frame_codec.md R84): FDECB of a frame cut short, the forms any byte sequence can
take at its head, and the agreement of the two decode variants on any bytes (R83). -/

namespace Sys2Proof.Machine

/-! ### FDECB of cut frames -/

/-- `o` is the error exit of a truncated frame; only working registers change besides. -/
def Truncated (s : State) (o : Result) : Prop := ∃ w, o = .next (errored 1 { s with work := w })

/-- A pull past the end of OP_BUF (20_memory.md R37). -/
theorem onBuffer_pastEnd {pre ahead : Bytes} {s : State} (h : BufferAt pre ahead s) {n : Nat} (hn : ahead.length < n)
    (k : Bytes → State → Result) : onBuffer n s k = .next (errored 1 s) := by
  refine onBuffer_short k ?_
  rw [h.buf, h.count, List.length_append]
  omega

theorem execFdecb_cutHeader {s : State} (h : s.ops.buf.length < 2) (txt : Bool) : Truncated s (execFdecb txt s) :=
  ⟨_, onBuffer_pastEnd (bufferAt_clearCount s) h _⟩

section
variable {txt fin msk : Bool} {rsv : BitVec 3} {opc : BitVec 4} {s : State}

theorem execFdecb_cutExt {len7 : BitVec 7} {ext : Bytes} (hs : s.ops.buf = wireHeader fin rsv opc msk len7 ++ ext)
    (hl : ext.length < extBytes len7) : Truncated s (execFdecb txt s) := by
  obtain ⟨w, ⟨hbuf, hcount⟩, e⟩ := execFdecb_header (txt := txt) hs
  have hb : BufferAt (wireHeader fin rsv opc msk len7) ext
      (headerLatched ⟨fin, rsv, opc, msk, len7⟩ { s with work := w }) := ⟨hbuf, hcount⟩
  rw [e, headerPhase_sentinel _ _ (by omega)]
  exact ⟨_, onBuffer_pastEnd hb hl _⟩

theorem afterKey_cut {next : Phase → State → Result} {pre body : Bytes} (hp : next .fPay = bufferPay txt)
    (hb : BufferAt pre body s) (hl : body.length < s.work.plen.toNat) : Truncated s (afterKey next txt s) := by
  have h0 : s.work.plen ≠ 0 := fun e => by rw [e] at hl; exact absurd hl (Nat.not_lt_zero _)
  rw [afterKey_payload h0, hp]
  exact ⟨_, onBuffer_pastEnd hb hl _⟩

theorem bufferKey_cut {pre body : Bytes} (hb : BufferAt pre body s) (hn : pre.length ≤ 10)
    (hl : body.length < 4 + s.work.plen.toNat) : Truncated s (bufferKey txt s) := by
  rcases Nat.lt_or_ge body.length 4 with h4 | h4
  · exact ⟨_, onBuffer_pastEnd hb h4 _⟩
  · obtain ⟨k, hk⟩ := MaskKey.exists_toBytes (bs := body.take 4) (by rw [List.length_take]; omega)
    rw [← List.take_append_drop 4 body, hk] at hb
    have hb' := hb.pulled (by rw [List.length_append, MaskKey.toBytes_length]; omega)
    rw [bufferKey, show phaseNeed .fKey s.work = k.toBytes.length from rfl, hb.onBuffer]
    exact afterKey_cut (s := { countPulled 4 s with work := { (countPulled 4 s).work with key := _ } }) rfl
      ⟨hb'.buf, hb'.count⟩ (by rw [List.length_drop]; exact Nat.sub_lt_left_of_lt_add h4 hl)

/-- The bytes of the key of a masked frame (30_encoding.md R51). -/
def keyLength (msk : Bool) : Nat := if msk then 4 else 0

theorem wireBody_length (key : Option MaskKey) (p : Bytes) : (wireBody key p).length = keyLength key.isSome + p.length := by
  cases key with
  | none => exact (Nat.zero_add _).symm
  | some k => rw [wireBody, List.length_append, maskedBytes_length]; rfl

theorem afterLength_cut {next : Phase → State → Result} {pre body : Bytes} {l : Nat} (hr : ReadsAhead txt next)
    (hb : BufferAt pre body s) (hn : pre.length ≤ 10) (hm : l ≤ s.maxPayload.val)
    (hl : body.length < keyLength s.work.mask + l) : Truncated s (afterLength next txt (BitVec.ofNat 64 l) s) := by
  obtain ⟨hk, hp⟩ := hr
  have hv := toNat_ofNat_of_lt_bound (Nat.lt_of_le_of_lt hm s.maxPayload.isLt)
  have hb' : BufferAt pre body { s with work := { s.work with plen := BitVec.ofNat 64 l } } := ⟨hb.buf, hb.count⟩
  rw [afterLength_fits txt (by rw [hv]; exact Nat.not_lt.mpr hm)]
  cases h : s.work.mask with
  | true =>
    rw [if_pos rfl, hk]
    rw [h] at hl
    exact bufferKey_cut hb' hn (hl.trans_eq (congrArg (4 + ·) hv.symm))
  | false =>
    rw [if_neg Bool.false_ne_true]
    rw [h] at hl
    exact afterKey_cut hp hb' (hl.trans_eq ((Nat.zero_add l).trans hv.symm))

theorem execFdecb_cutBody {l : Nat} {body : Bytes}
    (hs : s.ops.buf = wireHeader fin rsv opc msk (wireLen7 l) ++ (wireExt l ++ body)) (hm : l ≤ s.maxPayload.val)
    (hl : body.length < keyLength msk + l) : Truncated s (execFdecb txt s) := by
  have hx := extBytes_cases (wireLen7 l)
  have hn : (wireHeader fin rsv opc msk (wireLen7 l) ++ wireExt l).length ≤ 10 := by
    rw [List.length_append, wireExt_length, show (wireHeader fin rsv opc msk (wireLen7 l)).length = 2 from rfl]
    omega
  obtain ⟨next, w, hr, hb, e⟩ := execFdecb_ext (txt := txt) (wireExt_length l) hs
  rw [e, extPhase_resolved (resolveLen_wire (Nat.lt_of_le_of_lt hm s.maxPayload.isLt))]
  exact afterLength_cut hr hb hn hm hl

end

/-- Settles O23: the cut falls in the header, in the extension, or in the key or the payload. -/
theorem fdecbTruncatedFrames : Obligations.FdecbTruncatedFrames := by
  intro txt fin rsv opc key p n s hm hn hs
  have h2 : (wireHeader fin rsv opc key.isSome (wireLen7 p.length)).length = 2 := rfl
  have hb := wireBody_length key p
  have hx := wireExt_length p.length
  rw [wireFrame, List.append_assoc] at hn hs
  rw [List.length_append, List.length_append, h2] at hn
  rcases Nat.lt_or_ge n 2 with h | h
  · exact execFdecb_cutHeader (by rw [hs, List.length_take]; omega) txt
  rw [List.take_append, List.take_of_length_le h, h2, List.take_append] at hs
  rcases Nat.lt_or_ge (n - 2) (wireExt p.length).length with h' | h'
  · refine execFdecb_cutExt hs ?_
    simp only [List.length_append, List.length_take]
    omega
  · rw [List.take_of_length_le h'] at hs
    refine execFdecb_cutBody hs hm ?_
    rw [List.length_take]
    omega

/-! ### The forms of a byte sequence -/

/-- Two bytes are some header's (R52). -/
theorem exists_wireHeader (a b : Byte) : ∃ fin rsv opc msk len7, [a, b] = wireHeader fin rsv opc msk len7 :=
  ⟨_, _, _, _, _, by rw [← be16_headerWord, headerWord_unpackHdr, be16_append]⟩

/-- What a byte sequence begins with: a header or an extension cut short, a length that does not resolve (R54), or one that
does. -/
inductive WireForm (bs : Bytes) : Prop
  | cutHeader (h : bs.length < 2)
  | cutExt (fin msk : Bool) (rsv : BitVec 3) (opc : BitVec 4) (len7 : BitVec 7) (ext : Bytes)
      (h : bs = wireHeader fin rsv opc msk len7 ++ ext) (hl : ext.length < extBytes len7)
  | unresolved (fin msk : Bool) (rsv : BitVec 3) (opc : BitVec 4) (len7 : BitVec 7) (ext ahead : Bytes)
      (h : bs = wireHeader fin rsv opc msk len7 ++ (ext ++ ahead)) (hl : ext.length = extBytes len7)
      (hr : resolveLen len7 ext = none)
  | resolved (fin msk : Bool) (rsv : BitVec 3) (opc : BitVec 4) (l : Nat) (body : Bytes)
      (h : bs = wireHeader fin rsv opc msk (wireLen7 l) ++ (wireExt l ++ body)) (hl : l < 2 ^ 63)

/-- Every byte sequence has one of the forms. -/
theorem wireForm : (bs : Bytes) → WireForm bs
  | [] | [_] => .cutHeader (by simp)
  | a :: b :: tl => by
    obtain ⟨fin, rsv, opc, msk, len7, hh⟩ := exists_wireHeader a b
    have h : a :: b :: tl = wireHeader fin rsv opc msk len7 ++ tl := hh ▸ rfl
    rcases Nat.lt_or_ge tl.length (extBytes len7) with hx | hx
    · exact .cutExt _ _ _ _ _ tl h hx
    have h : a :: b :: tl = wireHeader fin rsv opc msk len7 ++ (tl.take (extBytes len7) ++ tl.drop (extBytes len7)) := by
      rw [List.take_append_drop]
      exact h
    have hl : (tl.take (extBytes len7)).length = extBytes len7 := by rw [List.length_take, Nat.min_eq_left hx]
    cases hr : resolveLen len7 (tl.take (extBytes len7)) with
    | none => exact .unresolved _ _ _ _ _ _ _ h hl hr
    | some v =>
      obtain ⟨h7, he⟩ := wire_of_resolveLen hl hr
      rw [he, h7] at h
      exact .resolved _ _ _ _ _ _ h (resolveLen_lt hl hr)

theorem maskedBytes_maskedBytes (k : MaskKey) (p : Bytes) : maskedBytes k (maskedBytes k p) = p := by
  rw [← xorMask_eq_maskedBytes, xorMask_maskedBytes]

/-- What follows the length is cut short, or begins with the key and the payload of a frame. -/
theorem body_cases (msk : Bool) (l : Nat) (body : Bytes) : body.length < keyLength msk + l ∨
    ∃ key p rest, key.isSome = msk ∧ p.length = l ∧ body = wireBody key p ++ rest := by
  rcases Nat.lt_or_ge body.length (keyLength msk + l) with h | h
  · exact .inl h
  refine .inr ?_
  cases msk with
  | false =>
    have h : l ≤ body.length := (Nat.zero_add l).symm.trans_le h
    exact ⟨none, body.take l, body.drop l, rfl, by rw [List.length_take, Nat.min_eq_left h],
      (List.take_append_drop ..).symm⟩
  | true =>
    have h : 4 + l ≤ body.length := h
    obtain ⟨k, hk⟩ := MaskKey.exists_toBytes (bs := body.take 4) (by rw [List.length_take]; omega)
    refine ⟨some k, maskedBytes k ((body.drop 4).take l), (body.drop 4).drop l, rfl, ?_, ?_⟩
    · rw [maskedBytes_length, List.length_take, List.length_drop]
      omega
    · rw [wireBody, maskedBytes_maskedBytes, ← hk, List.append_assoc, List.take_append_drop, List.take_append_drop]

/-! ### FDECS and FDECB on the same bytes (R83) -/

theorem extPhase_unresolved {next : Phase → State → Result} {txt : Bool} {ext : Bytes} {s : State}
    (h : resolveLen s.work.len7 ext = none) : extPhase next txt ext s = .next (errored 2 s) := by
  rw [extPhase, h]
  rfl

/-- A slot without an extension resolves. -/
theorem extBytes_ne_zero_of_unresolved {len7 : BitVec 7} {ext : Bytes} (h : resolveLen len7 ext = none) :
    extBytes len7 ≠ 0 := fun h0 => by
  rw [resolveLen_inline h0] at h
  cases h

theorem step_fExt_unresolved {txt : Bool} {ext ahead : Bytes} {s : State} (hd : Decoding txt s) (hp : s.phase = .fExt)
    (hs : s.strm = ext ++ ahead) (hl : ext.length = extBytes s.work.len7) (hr : resolveLen s.work.len7 ext = none) :
    step s = .next (errored 2 (consumed ext.length s)) := by
  rw [hd.step_exec (by simp [hp]), execFdecs_fExt hp hl hs]
  exact extPhase_unresolved hr

/-- An issued FDECS ends, within five steps, with `ProtocolError` on an extension that does not resolve. -/
theorem runsTo_fdecs_unresolved {txt fin msk : Bool} {rsv : BitVec 3} {opc : BitVec 4} {len7 : BitVec 7} {ext ahead : Bytes}
    {p : PortCmd} {s : State} (hb : s.status.busy = false) (hi : s.inputs = [.issue p])
    (hd : decodeCommand p.cw = .ok (.fdecs txt)) (hf : p.ops.fits s.maxPayload.val = true)
    (hs : s.strm = wireHeader fin rsv opc msk len7 ++ (ext ++ ahead)) (hl : ext.length = extBytes len7)
    (hr : resolveLen len7 ext = none) :
    ∃ w strm, runsTo 5 s (errored 2 { issued p s with work := w, strm := strm, inputs := [] }) := by
  have h1 := step_issue_fdecs hb hi hd hf
  have h2 := (Decoding.step_header (s := waiting .fHdr 2 (clearCount (latch p { s with inputs := [] })))
    ⟨rfl, hd, rfl⟩ rfl hs).trans (headerPhase_sentinel _ _ (extBytes_ne_zero_of_unresolved hr) _)
  have h3 := step_fExt_unresolved (txt := txt) (ext := ext) (s := waiting .fExt (extBytes len7)
    (headerLatched ⟨fin, rsv, opc, msk, len7⟩ (latchHeader (headerWord fin rsv opc msk len7)
      (consumed 2 (waiting .fHdr 2 (clearCount (latch p { s with inputs := [] }))))))) ⟨rfl, hd, rfl⟩ rfl
    (consumed_strm_append hs) hl hr
  exact ⟨_, _, (run_next h1).trans ((run_next h2).trans ((run_next h3).trans (runsTo_idle rfl rfl 2)))⟩

/-- The host reads the same end of a frame from states that agree on ERR, ERRCODE and the results. -/
theorem frameEnd_hostView {s t : State} (he : s.status.err = t.status.err) (hc : s.errcode = t.errcode) (hr : s.res = t.res)
    (txt fin : Bool) (opc : BitVec 4) (p : Bytes) (n : Nat) :
    (frameEnd txt fin opc p n s).hostView = (frameEnd txt fin opc p n t).hostView := by
  unfold frameEnd
  split <;> simp [State.hostView, he, hc, hr]

theorem frameEnd_consumedCount {txt fin : Bool} {opc : BitVec 4} {p : Bytes} {n : Nat} {s : State}
    (h : (frameEnd txt fin opc p n s).status.err = false) :
    (frameEnd txt fin opc p n s).res.consumed = BitVec.ofNat 64 n := by
  unfold frameEnd at h ⊢
  split at h
  · cases h
  · rfl

@[simp] theorem frameEnd_strm (txt fin : Bool) (opc : BitVec 4) (p : Bytes) (n : Nat) (s : State) :
    (frameEnd txt fin opc p n s).strm = s.strm := by
  unfold frameEnd; split <;> rfl

/-- An issue that steps on has run its command. -/
theorem exec_of_step_issue {s t : State} {p : PortCmd} {rest : List Input} {i : Instr} (hb : s.status.busy = false)
    (hi : s.inputs = .issue p :: rest) (hd : decodeCommand p.cw = .ok i) (h : step s = .next t) :
    exec i (latch p { s with inputs := rest }) = .next t := by
  rw [step_issue hi hb] at h
  rcases issueStep_cases p { s with inputs := rest } with ⟨-, e⟩ | ⟨-, ⟨j, hj, e⟩ | ⟨r, hr, -⟩⟩
  · cases e.symm.trans h
  · cases hd.symm.trans hj
    exact e.symm.trans h
  · cases hd.symm.trans hr

theorem asmFdecs_fits (txt : Bool) (m : Nat) : (asmFdecs txt).ops.fits m = true := by
  simp [OpRegs.fits, asmFdecs, OpRegs.cleared]

theorem decodeCommand_asmFdecs (txt : Bool) : decodeCommand (asmFdecs txt).cw = .ok (.fdecs txt) :=
  decodeEncodeAgree (.fdecs txt) rfl

/-- FDECS of `bs` on the stream ends, within five steps of its issue, as the host sees `b` end; without an error it has taken
RES_CONSUMED bytes. -/
def StreamEndsLike (txt : Bool) (bs : Bytes) (s b : State) : Prop :=
  ∃ t, runsTo 5 { s with inputs := [.issue (asmFdecs txt)] } t ∧ t.hostView = b.hostView ∧
    (b.status.err = false → t.strm = bs.drop b.res.consumed.toNat)

section
variable {txt fin : Bool} {rsv : BitVec 3} {opc : BitVec 4} {bs : Bytes} {s b : State} (hb : s.status.busy = false)
  (hs : s.strm = bs) (hbuf : execFdecb txt (latch (asmFdecb txt bs) { s with inputs := [] }) = .next b)
include hb hs hbuf

/-- A length that does not resolve is the same error in both. -/
theorem streamEndsLike_unresolved {msk : Bool} {len7 : BitVec 7} {ext ahead : Bytes}
    (h : bs = wireHeader fin rsv opc msk len7 ++ (ext ++ ahead)) (hl : ext.length = extBytes len7)
    (hr : resolveLen len7 ext = none) : StreamEndsLike txt bs s b := by
  obtain ⟨next, w, -, -, e⟩ := execFdecb_ext (txt := txt) (s := latch (asmFdecb txt bs) { s with inputs := [] }) hl h
  cases (e.trans (extPhase_unresolved (by exact hr))).symm.trans hbuf
  obtain ⟨v, strm, hrun⟩ := runsTo_fdecs_unresolved (s := { s with inputs := [.issue (asmFdecs txt)] }) hb rfl
    (decodeCommand_asmFdecs txt) (asmFdecs_fits txt _) (hs.trans h) hl hr
  exact ⟨_, hrun, rfl, fun h => by cases h⟩

/-- A whole frame that fits has the same end in both. -/
theorem streamEndsLike_frame {key : Option MaskKey} {p rest : Bytes} (h : bs = wireFrame fin rsv opc key p ++ rest)
    (hl : p.length ≤ s.maxPayload.val) : StreamEndsLike txt bs s b := by
  have hn := wireFrame_length_le fin rsv opc key p
  obtain ⟨w, e⟩ := execFdecb_wireFrame (txt := txt) (s := latch (asmFdecb txt bs) { s with inputs := [] }) hl h
  cases e.symm.trans hbuf
  obtain ⟨v, hrun⟩ := runsTo_fdecs (s := { s with inputs := [.issue (asmFdecs txt)] }) hb rfl
    (decodeCommand_asmFdecs txt) (asmFdecs_fits txt _) (hs.trans h) hl
  refine ⟨_, hrun, frameEnd_hostView (by rfl) (by rfl) (by rfl) .., fun hok => ?_⟩
  rw [frameEnd_strm, frameEnd_consumedCount hok, BitVec.toNat_ofNat, Nat.mod_eq_of_lt (by omega), h, List.drop_left]

end

/-- Settles O31, by the form of the bytes: a length that does not resolve and a whole frame that fits end both variants alike;
FDECB of any other bytes is truncated or refused. -/
theorem streamAgreesWithBuffer : Obligations.StreamAgreesWithBuffer := by
  intro txt bs s b hb hs hstep herr
  have hbuf : execFdecb txt (latch (asmFdecb txt bs) { s with inputs := [] }) = .next b :=
    exec_of_step_issue (s := { s with inputs := [.issue (asmFdecb txt bs)] }) hb rfl
      (decodeEncodeAgree (.fdecb txt) rfl) hstep
  have hcut : ¬ Truncated (latch (asmFdecb txt bs) { s with inputs := [] })
      (execFdecb txt (latch (asmFdecb txt bs) { s with inputs := [] })) := by
    rintro ⟨w, e⟩
    cases e.symm.trans hbuf
    exact herr rfl
  cases wireForm bs with
  | cutHeader h => exact (hcut (execFdecb_cutHeader h txt)).elim
  | cutExt fin msk rsv opc len7 ext h hl => exact (hcut (execFdecb_cutExt h hl)).elim
  | unresolved fin msk rsv opc len7 ext ahead h hl hr => exact streamEndsLike_unresolved hb hs hbuf h hl hr
  | resolved fin msk rsv opc l body h hl =>
    by_cases hm : l ≤ s.maxPayload.val
    · rcases body_cases msk l body with hc | ⟨key, p, rest, rfl, rfl, rfl⟩
      · exact (hcut (execFdecb_cutBody h hm hc)).elim
      · have h : bs = wireFrame fin rsv opc key p ++ rest := by rw [h, wireFrame, List.append_assoc, List.append_assoc]
        exact streamEndsLike_frame hb hs hbuf h hm
    · obtain ⟨hrefused, -, -⟩ := overCapacityRefused l body (latch (asmFdecb txt bs) { s with inputs := [] })
        (Nat.lt_of_not_le hm) hl
      cases (hrefused txt fin rsv opc msk (h.trans (List.append_assoc ..).symm)).symm.trans hbuf

end Sys2Proof.Machine
end

section
/-! PROOFS. UTF-8 (43_frame_codec.md R90, R91): the reader takes one sequence of the table at a time, and UTF8V answers by
it. -/

namespace Sys2Proof.Machine

/-! ### One sequence of the table (R90) -/

/-- The reader's test of one whole sequence, by its number of bytes. -/
def isUtf8Sequence : Bytes → Bool
  | [a] => inRange 0x00 0x7F a
  | [a, b] => utf8Two a b
  | [a, b, c] => utf8Three a b c
  | [a, b, c, d] => utf8Four a b c d
  | _ => false

@[simp] theorem rowHolds_nil {q : Bytes} : RowHolds [] q ↔ q = [] := List.forall₂_nil_left_iff

@[simp] theorem not_rowHolds_cons_nil {c : Nat × Nat} {row : List (Nat × Nat)} : ¬ RowHolds (c :: row) [] := nofun

@[simp] theorem rowHolds_cons {c : Nat × Nat} {row : List (Nat × Nat)} {b : Byte} {q : Bytes} :
    RowHolds (c :: row) (b :: q) ↔ inRange c.1 c.2 b = true ∧ RowHolds row q := by
  simp [RowHolds, inRange]

/-- The test is membership in a row of the table. -/
theorem isUtf8Sequence_iff (q : Bytes) : isUtf8Sequence q = true ↔ ∃ row ∈ utf8Table, RowHolds row q := by
  simp only [utf8Table, List.cons_append, List.nil_append, List.exists_mem_cons_iff]
  match q with
  | [] | [a] | [a, b] | [a, b, c] | [a, b, c, d] | a :: b :: c :: d :: e :: q =>
    simp [isUtf8Sequence, utf8Two, utf8Three, utf8Four, isCont, or_and_right, and_assoc, or_assoc]

/-! ### The first byte decides the number of bytes -/

theorem utf8Two_lead {a b : Byte} (h : utf8Two a b = true) : ¬ inRange 0x00 0x7F a = true := by
  simp only [utf8Two, inRange, Bool.and_eq_true, decide_eq_true_eq] at *
  omega

theorem utf8Three_lead {a b c : Byte} (h : utf8Three a b c = true) :
    ¬ inRange 0x00 0x7F a = true ∧ ¬ utf8Two a b = true := by
  simp only [utf8Three, utf8Two, isCont, inRange, Bool.and_eq_true, Bool.or_eq_true, decide_eq_true_eq] at *
  omega

theorem utf8Four_lead {a b c d : Byte} (h : utf8Four a b c d = true) :
    ¬ inRange 0x00 0x7F a = true ∧ ¬ utf8Two a b = true ∧ ¬ utf8Three a b c = true := by
  simp only [utf8Four, utf8Three, utf8Two, isCont, inRange, Bool.and_eq_true, Bool.or_eq_true, decide_eq_true_eq] at *
  omega

/-! ### The reader takes one sequence at a time -/

theorem utf8Valid_sequence_append {q : Bytes} (h : isUtf8Sequence q = true) (r : Bytes) :
    utf8Valid (q ++ r) = utf8Valid r := by
  rw [utf8Valid.eq_def]
  match q, h with
  | [a], h => exact if_pos h
  | [a, b], h => exact (if_neg (utf8Two_lead h)).trans (if_pos h)
  | [a, b, c], h =>
    obtain ⟨h1, h2⟩ := utf8Three_lead h
    exact (if_neg h1).trans ((if_neg h2).trans (if_pos h))
  | [a, b, c, d], h =>
    obtain ⟨h1, h2, h3⟩ := utf8Four_lead h
    have h : (utf8Four a b c d && utf8Valid r) = utf8Valid r := by rw [show utf8Four a b c d = true from h, Bool.true_and]
    exact (if_neg h1).trans ((if_neg h2).trans ((if_neg h3).trans h))

/-- A valid byte sequence begins with a sequence of the table, and what follows is valid. -/
theorem utf8Valid_cons_split {a : Byte} {r : Bytes} (h : utf8Valid (a :: r) = true) :
    ∃ q r', isUtf8Sequence q = true ∧ a :: r = q ++ r' ∧ utf8Valid r' = true := by
  unfold utf8Valid at h
  split at h
  · exact ⟨[a], r, ‹_›, rfl, h⟩
  split at h
  · cases h
  rename_i b r1
  split at h
  · exact ⟨[a, b], r1, ‹_›, rfl, h⟩
  split at h
  · cases h
  rename_i c r2
  split at h
  · exact ⟨[a, b, c], r2, ‹_›, rfl, h⟩
  split at h
  · cases h
  rename_i d r3
  obtain ⟨h4, h⟩ := Bool.and_eq_true_iff.mp h
  exact ⟨[a, b, c, d], r3, h4, rfl, h⟩

theorem exists_sequences {n : Nat} {bs : Bytes} (hn : bs.length ≤ n) (h : utf8Valid bs = true) :
    ∃ seqs : List Bytes, bs = seqs.flatten ∧ ∀ q ∈ seqs, isUtf8Sequence q = true := by
  induction n generalizing bs with
  | zero => exact ⟨[], List.length_eq_zero_iff.mp (Nat.le_zero.mp hn), by simp⟩
  | succ n ih =>
    cases bs with
    | nil => exact ⟨[], rfl, by simp⟩
    | cons a r =>
      obtain ⟨q, r', hq, hqr, hr⟩ := utf8Valid_cons_split h
      have hpos : q.length ≠ 0 := fun h0 => by
        rw [List.length_eq_zero_iff.mp h0] at hq
        cases hq
      have hlen := congrArg List.length hqr
      rw [List.length_append] at hlen
      obtain ⟨seqs, rfl, hall⟩ := ih (bs := r') (by omega) hr
      exact ⟨q :: seqs, hqr, List.forall_mem_cons.mpr ⟨hq, hall⟩⟩

theorem utf8Valid_flatten {seqs : List Bytes} (h : ∀ q ∈ seqs, isUtf8Sequence q = true) :
    utf8Valid seqs.flatten = true := by
  induction seqs with
  | nil => rfl
  | cons q seqs ih =>
    obtain ⟨hq, hall⟩ := List.forall_mem_cons.mp h
    rw [List.flatten_cons, utf8Valid_sequence_append hq, ih hall]

/-- Settles O33: the reader cuts a valid byte sequence into sequences of the table, and reads any concatenation of them. -/
theorem utf8IsTableConcatenation : Obligations.Utf8IsTableConcatenation := by
  intro bs
  simp only [← isUtf8Sequence_iff]
  constructor
  · exact exists_sequences (Nat.le_refl _)
  · rintro ⟨seqs, rfl, h⟩
    exact utf8Valid_flatten h

/-! ### UTF8V (R91) -/

/-- Settles O34: UTF8V's word is its encoding, and the command ends by the check. -/
theorem utf8vChecksOperand : Obligations.Utf8vChecksOperand :=
  ⟨decodeEncodeAgree .utf8v rfl, fun _ => ⟨fun h => if_pos h, fun h => if_neg (Bool.eq_false_iff.mp h)⟩⟩

end Sys2Proof.Machine
end

section
/-! PROOFS. The message of SHA-1 (44_accept_sha1.md R95, R96): its padding, its blocks, and the schedule of a block. -/

namespace Sys2Proof.Machine

/-! ### Padding (R95) -/

theorem padZeros_fills (n : Nat) : (n + 1 + padZeros n + 8) % 64 = 0 := by
  unfold padZeros
  omega

theorem padZeros_least {n y : Nat} (h : (n + 1 + y + 8) % 64 = 0) : padZeros n ≤ y := by
  unfold padZeros
  omega

theorem padMessage_length (m : Bytes) : (padMessage m).length = m.length + 1 + padZeros m.length + 8 := by
  simp only [padMessage, List.length_append, List.length_singleton, List.length_replicate, be64_length]

theorem padMessage_eq_beBytes {m : Bytes} (h : 8 * m.length < 2 ^ 64) :
    padMessage m = m ++ [0x80] ++ List.replicate (padZeros m.length) 0 ++ beBytes 8 (8 * m.length) := by
  rw [padMessage, be64_eq_beBytes, BitVec.toNat_ofNat, Nat.mod_eq_of_lt h]

/-! ### Blocks (R95) -/

theorem blocks64_flatten (n : Nat) (m : Bytes) : (blocks64 n m).flatten = m.take (64 * n) := by
  induction n generalizing m with
  | zero => rfl
  | succ n ih => rw [blocks64, List.flatten_cons, ih, Nat.mul_succ, Nat.add_comm, List.take_add]

theorem length_of_mem_blocks64 {n : Nat} {m b : Bytes} (hm : 64 * n ≤ m.length) (hb : b ∈ blocks64 n m) :
    b.length = 64 := by
  induction n generalizing m with
  | zero => cases hb
  | succ n ih =>
    rcases List.mem_cons.mp hb with rfl | hb
    · rw [List.length_take]
      omega
    · exact ih (by rw [List.length_drop]; omega) hb

/-! ### The words of a block (R96) -/

/-- A byte appended to a word of any width. -/
theorem toNat_append_byte {w : Nat} (x : BitVec w) (b : Byte) : (x ++ b).toNat = x.toNat * 256 + b.toNat := by
  rw [BitVec.toNat_append, ← Nat.shiftLeft_add_eq_or_of_lt b.isLt, Nat.shiftLeft_eq]

theorem ofNat_frombe_four (a b c d : Byte) : BitVec.ofNat 32 (frombe [a, b, c, d]) = (a ++ b ++ c ++ d : BitVec 32) := by
  apply BitVec.eq_of_toNat_eq
  have hlt : frombe [a, b, c, d] < 2 ^ 32 := by simpa using frombe_lt [a, b, c, d]
  rw [BitVec.toNat_ofNat, Nat.mod_eq_of_lt hlt]
  simp [toNat_append_byte, frombe]

theorem take_drop_four {b : Bytes} {i : Nat} (h : i + 4 ≤ b.length) :
    (b.drop i).take 4 = [b.getD i 0, b.getD (i + 1) 0, b.getD (i + 2) 0, b.getD (i + 3) 0] := by
  have drop_eq {j : Nat} (hj : j < b.length) : b.drop j = b.getD j 0 :: b.drop (j + 1) := by
    rw [List.getD_eq_getElem _ _ hj, List.drop_eq_getElem_cons hj]
  rw [drop_eq (by omega), drop_eq (by omega), drop_eq (by omega), drop_eq (by omega)]
  rfl

@[simp] theorem words32_length (n : Nat) (b : Bytes) : (words32 n b).length = n := by
  induction n generalizing b with
  | zero => rfl
  | succ n ih => rw [words32, List.length_cons, ih]

theorem words32_getD {n t : Nat} (h : t < n) (b : Bytes) :
    (words32 n b).getD t 0 = BitVec.ofNat 32 (frombe ((b.drop (4 * t)).take 4)) := by
  induction n generalizing t b with
  | zero => cases h
  | succ n ih =>
    cases t with
    | zero => rfl
    | succ t => rw [words32, List.getD_cons_succ, ih (Nat.lt_of_succ_lt_succ h), List.drop_drop, Nat.mul_succ, Nat.add_comm]

/-! ### The schedule (R96) -/

/-- From word 16 on, every word is the rotated xor of the words 3, 8, 14 and 16 back; the list holds the first word first. -/
def FollowsSchedule (ws : List Word32) : Prop :=
  ∀ t, 16 ≤ t → t < ws.length →
    ws.getD t 0 = (ws.getD (t - 3) 0 ^^^ ws.getD (t - 8) 0 ^^^ ws.getD (t - 14) 0 ^^^ ws.getD (t - 16) 0).rotateLeft 1

theorem followsSchedule_of_length_le {ws : List Word32} (h : ws.length ≤ 16) : FollowsSchedule ws :=
  fun _ ht hlt => absurd (hlt.trans_le h) (Nat.not_lt.mpr ht)

/-- `nextSchedule` reads its list latest word first. -/
theorem nextSchedule_eq {ws : List Word32} (h : 16 ≤ ws.length) :
    nextSchedule ws = (ws.reverse.getD (ws.length - 3) 0 ^^^ ws.reverse.getD (ws.length - 8) 0 ^^^
      ws.reverse.getD (ws.length - 14) 0 ^^^ ws.reverse.getD (ws.length - 16) 0).rotateLeft 1 := by
  have back : ∀ k < 16, ws.getD k 0 = ws.reverse.getD (ws.length - (k + 1)) 0 := fun k hk => by
    rw [List.getD_reverse _ (by omega)]
    congr 1
    omega
  rw [nextSchedule, back 2 (by omega), back 7 (by omega), back 13 (by omega), back 15 (by omega)]

theorem FollowsSchedule.cons_nextSchedule {ws : List Word32} (h : FollowsSchedule ws.reverse) (hl : 16 ≤ ws.length) :
    FollowsSchedule (nextSchedule ws :: ws).reverse := by
  intro t ht hlt
  rw [List.length_reverse, List.length_cons] at hlt
  have old : ∀ i < ws.length, (nextSchedule ws :: ws).reverse.getD i 0 = ws.reverse.getD i 0 := fun i hi => by
    rw [List.reverse_cons, List.getD_append _ _ _ _ (by rwa [List.length_reverse])]
  rw [old (t - 3) (by omega), old (t - 8) (by omega), old (t - 14) (by omega), old (t - 16) (by omega)]
  rcases Nat.lt_succ_iff_lt_or_eq.mp hlt with hlt | rfl
  · rw [old t hlt]
    exact h t ht (by rwa [List.length_reverse])
  · rw [← nextSchedule_eq hl, List.reverse_cons, List.getD_append_right _ _ _ _ (by simp)]
    simp

@[simp] theorem extendSchedule_length (n : Nat) (ws : List Word32) : (extendSchedule n ws).length = ws.length + n := by
  induction n generalizing ws with
  | zero => rfl
  | succ n ih => rw [extendSchedule, ih, List.length_cons, Nat.add_right_comm, Nat.add_assoc]

theorem extendSchedule_eq_append (n : Nat) (ws : List Word32) : ∃ later, extendSchedule n ws = later ++ ws := by
  induction n generalizing ws with
  | zero => exact ⟨[], rfl⟩
  | succ n ih =>
    obtain ⟨later, h⟩ := ih (nextSchedule ws :: ws)
    exact ⟨later ++ [nextSchedule ws], by rw [extendSchedule, h, List.append_assoc, List.singleton_append]⟩

theorem FollowsSchedule.extendSchedule {ws : List Word32} (h : FollowsSchedule ws.reverse) (hl : 16 ≤ ws.length)
    (n : Nat) : FollowsSchedule (extendSchedule n ws).reverse := by
  induction n generalizing ws with
  | zero => exact h
  | succ n ih => exact ih (h.cons_nextSchedule hl) (by rw [List.length_cons]; omega)

theorem schedule_length (b : Bytes) : (schedule b).length = 80 := by simp [schedule]

theorem schedule_eq_words32_append (b : Bytes) : ∃ later, schedule b = words32 16 b ++ later := by
  obtain ⟨later, h⟩ := extendSchedule_eq_append 64 (words32 16 b).reverse
  exact ⟨later.reverse, by rw [schedule, h, List.reverse_append, List.reverse_reverse]⟩

theorem followsSchedule_schedule (b : Bytes) : FollowsSchedule (schedule b) :=
  FollowsSchedule.extendSchedule (followsSchedule_of_length_le (by simp)) (by simp) 64

/-- Settles O38: the block's words begin the schedule, and every word added to it follows from the sixteen before it. -/
theorem sha1Schedule : Obligations.Sha1Schedule := by
  intro b hb
  refine ⟨schedule_length b, fun t ht => ?_, fun t h16 h80 => ?_⟩
  · obtain ⟨later, hlater⟩ := schedule_eq_words32_append b
    rw [hlater, List.getD_append _ _ _ _ (by rwa [words32_length]), words32_getD ht, take_drop_four (by omega),
      ofNat_frombe_four]
  · exact followsSchedule_schedule b t h16 (by rwa [schedule_length])

end Sys2Proof.Machine
end

section
/-! PROOFS. Base64 (44_accept_sha1.md R98), one group of up to three bytes at a time: its length, its padding, and that the
characters determine the bytes. -/

namespace Sys2Proof.Machine

/-! ### The alphabet -/

/-- The 6-bit value of a character: what undoes `base64Char`. -/
def base64Value (c : Byte) : BitVec 6 :=
  if 0x61 ≤ c.toNat then BitVec.ofNat 6 (c.toNat - 0x61 + 26)
  else if 0x41 ≤ c.toNat then BitVec.ofNat 6 (c.toNat - 0x41)
  else if 0x30 ≤ c.toNat then BitVec.ofNat 6 (c.toNat - 0x30 + 52)
  else if c = 0x2B then 62
  else 63

theorem base64Value_base64Char : Function.LeftInverse base64Value base64Char := by decide

theorem base64Char_inj {v w : BitVec 6} : base64Char v = base64Char w ↔ v = w := base64Value_base64Char.injective.eq_iff

@[simp] theorem base64Char_ne_pad : ∀ v : BitVec 6, base64Char v ≠ base64Pad := by decide

/-! ### One group -/

theorem append_sixes (v : BitVec 24) :
    (v.extractLsb' 18 6 ++ v.extractLsb' 12 6 ++ v.extractLsb' 6 6 ++ v.extractLsb' 0 6 : BitVec 24) = v := by
  have h12 : v.extractLsb' 18 6 ++ v.extractLsb' 12 6 = v.extractLsb' 12 12 :=
    BitVec.extractLsb'_append_extractLsb'_eq_extractLsb' rfl
  have h6 : v.extractLsb' 12 12 ++ v.extractLsb' 6 6 = v.extractLsb' 6 18 :=
    BitVec.extractLsb'_append_extractLsb'_eq_extractLsb' rfl
  rw [h12, h6]
  exact BitVec.extractLsb'_append_extractLsb' (w := 18)

theorem base64Group_inj {v w : BitVec 24} (h : base64Group v = base64Group w) : v = w := by
  simp only [base64Group, List.cons.injEq, base64Char_inj, and_true] at h
  obtain ⟨h18, h12, h6, h0⟩ := h
  rw [← append_sixes v, h18, h12, h6, h0, append_sixes]

/-- The characters that `=` stands for are those of value 0, so the group is known from the others. -/
theorem base64Group_one (a : Byte) :
    base64Group (a ++ 0#16) = (base64Group (a ++ 0#16)).take 2 ++ [base64Char 0, base64Char 0] := by
  have h6 : (a ++ 0#16).extractLsb' 6 6 = 0 := BitVec.extractLsb'_append_eq_of_add_le (by decide)
  have h0 : (a ++ 0#16).extractLsb' 0 6 = 0 := BitVec.extractLsb'_append_eq_of_add_le (by decide)
  rw [base64Group, h6, h0]
  rfl

theorem base64Group_two (a b : Byte) :
    base64Group (a ++ b ++ 0#8) = (base64Group (a ++ b ++ 0#8)).take 3 ++ [base64Char 0] := by
  have h0 : (a ++ b ++ 0#8).extractLsb' 0 6 = 0 := BitVec.extractLsb'_append_eq_of_add_le (by decide)
  rw [base64Group, h0]
  rfl

theorem bitVec_append_inj {m n : Nat} {x x' : BitVec m} {y y' : BitVec n} : x ++ y = x' ++ y' ↔ x = x' ∧ y = y' := by
  refine ⟨fun h => ⟨?_, ?_⟩, fun ⟨hx, hy⟩ => by rw [hx, hy]⟩
  · rw [← BitVec.extractLsb'_append_eq_left (a := x) (b := y), h, BitVec.extractLsb'_append_eq_left]
  · rw [← BitVec.extractLsb'_append_eq_right (a := x) (b := y), h, BitVec.extractLsb'_append_eq_right]

/-! ### Groups in order -/

section
variable (a : Byte) (d : Bytes)

theorem base64_cons : base64 (a :: d) = base64 (a :: d.take 2) ++ base64 (d.drop 2) := by
  match d with
  | [] | [_] => exact (List.append_nil _).symm
  | _ :: _ :: _ => rfl

theorem base64_group_length : (base64 (a :: d.take 2)).length = 4 := by
  match d with
  | [] | [_] | _ :: _ :: _ => rfl

/-- The number of `=` tells the number of bytes in a group. -/
theorem base64_group_count_pad : (base64 (a :: d.take 2)).count base64Pad + (d.take 2).length = 2 := by
  match d with
  | [] | [_] | _ :: _ :: _ => simp [base64, base64Group]

end

theorem base64_group_inj_of_length {a a' : Byte} {p p' : Bytes} (h2 : p.length ≤ 2) (hl : p.length = p'.length)
    (h : base64 (a :: p) = base64 (a' :: p')) : a :: p = a' :: p' := by
  match p, p' with
  | [], [] =>
    have h := base64Group_inj ((base64Group_one a).trans (by rw [List.append_cancel_right h, ← base64Group_one]))
    rw [(bitVec_append_inj.mp h).1]
  | [b], [b'] =>
    have h := base64Group_inj ((base64Group_two a b).trans (by rw [List.append_cancel_right h, ← base64Group_two]))
    obtain ⟨rfl, rfl⟩ := bitVec_append_inj.mp (bitVec_append_inj.mp h).1
    rfl
  | [b, c], [b', c'] =>
    obtain ⟨hab, rfl⟩ := bitVec_append_inj.mp (base64Group_inj (List.append_cancel_right h))
    obtain ⟨rfl, rfl⟩ := bitVec_append_inj.mp hab
    rfl
  | _ :: _ :: _ :: _, _ => exact absurd h2 (by simp)

theorem base64_group_inj {a a' : Byte} {d d' : Bytes} (h : base64 (a :: d.take 2) = base64 (a' :: d'.take 2)) :
    a :: d.take 2 = a' :: d'.take 2 := by
  have hd := base64_group_count_pad a d
  have hd' := base64_group_count_pad a' d'
  rw [h] at hd
  exact base64_group_inj_of_length (List.length_take_le ..) (by omega) h

theorem base64_length (d : Bytes) : (base64 d).length = 4 * ((d.length + 2) / 3) := by
  induction d using base64.induct with
  | case1 | case2 | case3 => simp [base64, base64Group]
  | case4 a b c rest ih =>
    rw [base64, List.length_append, ih]
    simp only [base64Group, List.length_cons, List.length_nil]
    omega

theorem base64_eq_nil_iff {d : Bytes} : base64 d = [] ↔ d = [] := by
  rw [← List.length_eq_zero_iff, ← List.length_eq_zero_iff, base64_length]
  omega

theorem base64_inj : ∀ {d e : Bytes}, base64 d = base64 e → d = e
  | [], _, h => (base64_eq_nil_iff.mp h.symm).symm
  | _ :: _, [], h => base64_eq_nil_iff.mp h
  | a :: d, a' :: d', h => by
    rw [base64_cons, base64_cons a'] at h
    obtain ⟨hgroup, hrest⟩ := List.append_inj h (by rw [base64_group_length, base64_group_length])
    obtain ⟨rfl, htake⟩ := List.cons.inj (base64_group_inj hgroup)
    rw [← List.take_append_drop 2 d, htake, base64_inj hrest, List.take_append_drop]
termination_by d => d.length

/-- A last group of two bytes ends in one `=`. -/
theorem base64_ends_in_pad {d : Bytes} (h : d.length % 3 = 2) : ∃ cs, base64 d = cs ++ [base64Pad] := by
  induction d using base64.induct with
  | case1 | case2 => cases h
  | case3 a b => exact ⟨_, rfl⟩
  | case4 a b c rest ih =>
    obtain ⟨cs, hcs⟩ := ih (by simp only [List.length_cons] at h; omega)
    exact ⟨base64Group (a ++ b ++ c) ++ cs, by rw [base64, hcs, List.append_assoc]⟩

/-- Settles O39: the characters are those of the groups in order, and each group can be read back. -/
theorem base64KeepsItsInput : Obligations.Base64KeepsItsInput := ⟨base64_length, fun _ _ => base64_inj⟩

end Sys2Proof.Machine
end

section
/-! PROOFS. ACCEPT (44_accept_sha1.md R94, R95, R99, R100): it answers the accept value of its key, or is refused for a
message that cannot be padded. -/

namespace Sys2Proof.Machine

theorem acceptMessage_length (key : Bytes) : (acceptMessage key).length = key.length + 36 := List.length_append

theorem unpaddable_iff (m : Bytes) : unpaddable m = true ↔ 2 ^ 64 ≤ 8 * m.length := decide_eq_true_iff

theorem exec_accept_refused {s : State} (h : 2 ^ 64 ≤ 8 * (acceptMessage s.ops.data).length) :
    exec .accept s = .refused .messageUnpaddable :=
  if_pos ((unpaddable_iff _).mpr h)

/-- What the SHA-1 registers held does not reach the result. -/
theorem exec_accept_completes {s : State} (h : 8 * (acceptMessage s.ops.data).length < 2 ^ 64) :
    exec .accept s = .next (completed { s.res with data := computeAccept s.ops.data }
      { s with sha := sha1Run (acceptMessage s.ops.data) s.sha }) := by
  rw [computeAccept, sha1, digest_sha1Run _ _ s.sha]
  exact if_neg fun hu => Nat.not_le.mpr h ((unpaddable_iff _).mp hu)

theorem exec_accept_data {s t : State} (h : exec .accept s = .next t) : t.res.data = computeAccept s.ops.data := by
  rcases Nat.lt_or_ge (8 * (acceptMessage s.ops.data).length) (2 ^ 64) with hlt | hge
  · cases (exec_accept_completes hlt).symm.trans h
    rfl
  · cases (exec_accept_refused hge).symm.trans h

/-! ### The shape of the accept value (R98, R100) -/

theorem digest_length (r : ShaRegs) : (digest r).length = 20 := by
  simp only [digest, List.length_append, be32_length]

theorem computeAccept_length (key : Bytes) : (computeAccept key).length = 28 := by
  rw [computeAccept, base64_length, sha1, digest_length]

theorem computeAccept_last (key : Bytes) : (computeAccept key).getD 27 0 = 0x3D := by
  obtain ⟨cs, hcs⟩ := base64_ends_in_pad (d := sha1 (acceptMessage key)) (by rw [sha1, digest_length])
  have hlen := computeAccept_length key
  rw [computeAccept, hcs, List.length_append, List.length_singleton] at hlen
  rw [computeAccept, hcs, List.getD_append_right _ _ _ _ (by omega), show 27 - cs.length = 0 by omega]
  rfl

/-- The key of R100's vector. -/
def vectorKey : Bytes :=
  [0x64, 0x47, 0x68, 0x6C, 0x49, 0x48, 0x4E, 0x68, 0x62, 0x58, 0x42, 0x73] ++
    [0x5A, 0x53, 0x42, 0x75, 0x62, 0x32, 0x35, 0x6A, 0x5A, 0x51, 0x3D, 0x3D]

theorem computeAccept_vectorKey : computeAccept vectorKey =
    [0x73, 0x33, 0x70, 0x50, 0x4C, 0x4D, 0x42, 0x69, 0x54, 0x78, 0x61, 0x51, 0x39, 0x6B] ++
      [0x59, 0x47, 0x7A, 0x7A, 0x68, 0x5A, 0x52, 0x62, 0x4B, 0x2B, 0x78, 0x4F, 0x6F, 0x3D] := by
  decide +kernel

/-! ### The statements -/

/-- Settles O35: either the message can be padded or ACCEPT is refused. -/
theorem acceptComputesValue : Obligations.AcceptComputesValue := by
  refine ⟨decodeEncodeAgree .accept rfl, fun s => ?_⟩
  rw [← acceptMessage_length]
  exact ⟨fun h => ⟨computeAccept_length s.ops.data, _, exec_accept_completes h⟩, exec_accept_refused⟩

/-- Settles O36: RES_DATA is `computeAccept` of the key alone. -/
theorem acceptVectorAndShape : Obligations.AcceptVectorAndShape := by
  refine ⟨fun s hs => ?_, fun s t h => ?_, fun s t s' t' hk h h' => ?_⟩
  · have hs : s.ops.data = vectorKey := hs
    have hlt : 8 * (acceptMessage s.ops.data).length < 2 ^ 64 := by rw [hs]; decide
    exact ⟨_, exec_accept_completes hlt, (congrArg computeAccept hs).trans computeAccept_vectorKey⟩
  · rw [exec_accept_data h]
    exact ⟨computeAccept_length _, computeAccept_last _⟩
  · rw [exec_accept_data h, exec_accept_data h', hk]

/-- Settles O37: the padding of R95 fills whole blocks, and the blocks in order are the padded message. -/
theorem sha1Padding : Obligations.Sha1Padding := by
  refine ⟨fun m hm => ?_, fun s => exec_accept_refused⟩
  have hfill := padZeros_fills m.length
  rw [← padMessage_length] at hfill
  have hblocks : 64 * ((padMessage m).length / 64) = (padMessage m).length := by omega
  refine ⟨⟨padZeros m.length, padMessage_eq_beBytes hm, padZeros_fills _, fun _ => padZeros_least, fun h60 => ?_⟩, ?_,
    fun b => length_of_mem_blocks64 hblocks.le⟩
  · rw [padMessage_length, h60]
    decide
  · rw [blocks64_flatten, hblocks, List.take_length]

end Sys2Proof.Machine
end

section
/-! PROOFS. The host's handshake text (45_handshake_host.md): what the parser reads from lines that end in CR LF, the header
that a lookup finds, and the server's command and response. -/

namespace Sys2Proof.Machine

/-! ### Lines (R105) -/

/-- The lines of a text: what R105 parses. -/
def textLines (raw : Bytes) : List Bytes := (splitLf raw).map dropTrailingCr

@[simp] theorem textLines_nil : textLines [] = [[]] := rfl

theorem splitLf_line {l : Bytes} (h : charLf ∉ l) (rest : Bytes) : splitLf (l ++ charLf :: rest) = l :: splitLf rest := by
  induction l with
  | nil => exact if_pos rfl
  | cons b bs ih =>
    obtain ⟨hb, hbs⟩ := List.ne_and_not_mem_of_not_mem_cons h
    rw [List.cons_append, splitLf, if_neg (Ne.symm hb), ih hbs]

theorem dropTrailingCr_append_cr : ∀ l : Bytes, dropTrailingCr (l ++ [charCr]) = l
  | [] => rfl
  | [_] => rfl
  | b :: c :: bs => congrArg (b :: ·) (dropTrailingCr_append_cr (c :: bs))

theorem textLines_lf (raw : Bytes) : textLines (charLf :: raw) = [] :: textLines raw := rfl

theorem textLines_line {l : Bytes} (h : charLf ∉ l) (rest : Bytes) :
    textLines (l ++ crlf ++ rest) = l :: textLines rest := by
  have hcr : charLf ∉ l ++ [charCr] := by
    rw [List.mem_append, not_or]
    exact ⟨h, by decide⟩
  rw [show l ++ crlf ++ rest = (l ++ [charCr]) ++ charLf :: rest by simp [crlf], textLines, splitLf_line hcr, List.map_cons,
    dropTrailingCr_append_cr, textLines]

/-- Lines that end in CR LF come back as they are, with the empty rest after the last LF. -/
theorem textLines_crlf_lines {ls : List Bytes} (h : ∀ l ∈ ls, charLf ∉ l) :
    textLines (ls.flatMap (· ++ crlf)) = ls ++ [[]] := by
  induction ls with
  | nil => rfl
  | cons l ls ih =>
    obtain ⟨hl, hls⟩ := List.forall_mem_cons.mp h
    rw [List.flatMap_cons, textLines_line hl, ih hls, List.cons_append]

theorem parseRequest_empty {raw : Bytes} {ls : List Bytes} (h : textLines raw = [] :: ls) :
    parseRequest raw = .error .handshake := by
  rw [parseRequest, ← textLines, h]

theorem parseRequest_lines {raw l : Bytes} {ls : List Bytes} (h : textLines raw = l :: ls) (hl : l ≠ []) :
    parseRequest raw = .ok { requestLine := l, headers := parseHeaders ls [] } := by
  obtain ⟨b, bs, rfl⟩ := List.exists_cons_of_ne_nil hl
  rw [parseRequest, ← textLines, h]

/-! ### Headers (R105) -/

theorem lookupHeader_setHeader_same (name value : Bytes) (m : List (Bytes × Bytes)) :
    lookupHeader name (setHeader m (name, value)) = some value := by
  have hnone : (m.filter fun e => e.1 != name).find? (fun e => e.1 == name) = none := by
    simp [List.find?_eq_none]
  simp [lookupHeader, setHeader, hnone]

theorem dropWhile_isBlank_of_head {v : Bytes} (h : ∀ b, v.head? = some b → isBlank b = false) :
    v.dropWhile isBlank = v := by
  cases v with
  | nil => rfl
  | cons b bs => exact List.dropWhile_cons_of_neg (by rw [h b rfl]; exact Bool.false_ne_true)

theorem parseHeaderLine_colon {name : Bytes} (hn : 0x3A ∉ name) (value : Bytes) :
    parseHeaderLine (name ++ textColon ++ value) = some (name, value.dropWhile isBlank) := by
  have hname : ∀ b ∈ name, (b != 0x3A) = true := fun b hb => bne_iff_ne.mpr fun h => hn (h ▸ hb)
  have hsplit : name ++ textColon ++ value = name ++ 0x3A :: 0x20 :: value := by rw [List.append_assoc]; rfl
  rw [hsplit, parseHeaderLine, List.dropWhile_append_of_pos hname, List.takeWhile_append_of_pos hname]
  simp [isBlank]

/-- Lines before the first empty one are passed over, whatever headers they set. -/
theorem parseHeaders_append {ls : List Bytes} (h : ∀ l ∈ ls, l ≠ []) (rest : List Bytes) (m : List (Bytes × Bytes)) :
    ∃ m', parseHeaders (ls ++ rest) m = parseHeaders rest m' := by
  induction ls generalizing m with
  | nil => exact ⟨m, rfl⟩
  | cons l ls ih =>
    obtain ⟨hl, hls⟩ := List.forall_mem_cons.mp h
    obtain ⟨b, bs, rfl⟩ := List.exists_cons_of_ne_nil hl
    rw [List.cons_append, parseHeaders]
    cases parseHeaderLine (b :: bs) with
    | none => exact ih hls m
    | some nv => exact ih hls (setHeader m nv)

theorem parseHeaders_last {l : Bytes} {nv : Bytes × Bytes} (hl : parseHeaderLine l = some nv) (rest : List Bytes)
    (m : List (Bytes × Bytes)) : parseHeaders (l :: [] :: rest) m = setHeader m nv := by
  cases l with
  | nil => cases hl
  | cons b bs => simp only [parseHeaders, hl]

/-- The last header before the empty line is found, whatever stands before it: a repeated name overwrites. -/
theorem lookupHeader_last {ls : List Bytes} {l name value : Bytes} (hls : ∀ l ∈ ls, l ≠ [])
    (hl : parseHeaderLine l = some (name, value)) (rest : List Bytes) (m : List (Bytes × Bytes)) :
    lookupHeader name (parseHeaders (ls ++ l :: [] :: rest) m) = some value := by
  obtain ⟨m', hm'⟩ := parseHeaders_append hls (l :: [] :: rest) m
  rw [hm', parseHeaders_last hl, lookupHeader_setHeader_same]

/-! ### The server's command (R101, R106) -/

theorem serverCommand_of_parse_error {raw : Bytes} {e : ErrKind} (h : parseRequest raw = .error e) :
    serverCommand raw = .error e := by
  rw [serverCommand, h]

theorem serverCommand_of_key {raw key : Bytes} {r : ParsedRequest} (h : parseRequest raw = .ok r)
    (hk : lookupHeader nameKey r.headers = some key) : serverCommand raw = .ok (asmAccept key) := by
  simp only [serverCommand, h, hk]

theorem serverCommand_of_no_key {raw : Bytes} {r : ParsedRequest} (h : parseRequest raw = .ok r)
    (hk : lookupHeader nameKey r.headers = none) : serverCommand raw = .error .handshake := by
  simp only [serverCommand, h, hk]

/-- Settles O55: the first line is empty, or the lookup is. -/
theorem handshakeErrors : Obligations.HandshakeErrors :=
  ⟨fun raw => ⟨serverCommand_of_parse_error (parseRequest_empty (textLines_lf raw)),
      serverCommand_of_parse_error (parseRequest_empty (textLines_line List.not_mem_nil raw)),
      serverCommand_of_parse_error (parseRequest_empty textLines_nil)⟩,
    fun _ _ => serverCommand_of_no_key⟩

/-! ### The built request (R103) -/

/-- The lines of a built request between its request line and its key. -/
def headerLinesBeforeKey (host : Bytes) : List Bytes := [textHost ++ host, textUpgrade, textConnection, textVersion]

theorem headerLinesBeforeKey_ne_nil (host : Bytes) : ∀ l ∈ headerLinesBeforeKey host, l ≠ [] := by
  simp only [headerLinesBeforeKey, List.forall_mem_cons]
  exact ⟨List.append_ne_nil_of_left_ne_nil (by decide) _, by decide, by decide, by decide, List.forall_mem_nil _⟩

/-- The lines of a built request, without their CR LF. -/
def requestLines (host key : Bytes) : List Bytes :=
  textGet :: (headerLinesBeforeKey host ++ [nameKey ++ textColon ++ key, []])

theorem buildRequest_eq_lines (host key : Bytes) : buildRequest host key = (requestLines host key).flatMap (· ++ crlf) := by
  simp [buildRequest, requestLines, headerLinesBeforeKey]

theorem charLf_not_mem_requestLines {host key : Bytes} (hh : charLf ∉ host) (hk : charLf ∉ key) :
    ∀ l ∈ requestLines host key, charLf ∉ l := by
  have hhost : charLf ∉ textHost ++ host := List.not_mem_append (by decide) hh
  have hkey : charLf ∉ nameKey ++ textColon ++ key := List.not_mem_append (by decide) hk
  simp only [requestLines, headerLinesBeforeKey, List.cons_append, List.nil_append, List.forall_mem_cons]
  exact ⟨by decide, hhost, by decide, by decide, by decide, hkey, List.not_mem_nil, List.forall_mem_nil _⟩

theorem textLines_buildRequest {host key : Bytes} (hh : charLf ∉ host) (hk : charLf ∉ key) :
    textLines (buildRequest host key) = requestLines host key ++ [[]] := by
  rw [buildRequest_eq_lines, textLines_crlf_lines (charLf_not_mem_requestLines hh hk)]

/-- Settles O54: the key's line is the last header, and only a leading blank of the key would be lost. -/
theorem serverFindsTheKey : Obligations.ServerFindsTheKey := by
  intro host key hh hk hblank
  have hline : parseHeaderLine (nameKey ++ textColon ++ key) = some (nameKey, key) := by
    rw [parseHeaderLine_colon (by decide), dropWhile_isBlank_of_head hblank]
  refine serverCommand_of_key (parseRequest_lines (textLines_buildRequest hh hk) (by decide)) ?_
  rw [List.append_assoc]
  exact lookupHeader_last (headerLinesBeforeKey_ne_nil host) hline [[]] []

/-! ### The server's response (R107, 70_reset_and_hazards.md R125) -/

theorem serverResponse_eq_some {v : HostView} (hd : v.status.done = true) (hb : v.status.busy = false)
    (he : v.status.err = false) : serverResponse v = some (buildResponse v.res.data) := by
  simp [serverResponse, hd, hb, he]

theorem serverResponse_eq_none {v : HostView} (h : v.status.busy = true ∨ v.status.done = false ∨ v.status.err = true) :
    serverResponse v = none := by
  rcases h with h | h | h <;> simp [serverResponse, h]

theorem asmAccept_fits {key : Bytes} {m : Nat} (h : key.length ≤ m) : (asmAccept key).ops.fits m = true := by
  simp [asmAccept, unnamedOperands, OpRegs.fits, OpRegs.cleared, h]

/-- An issued ACCEPT of a key that can be padded completes in its step, with the accept value on the result port. -/
theorem step_asmAccept {s : State} {key : Bytes} {rest : List Input} (hb : s.status.busy = false)
    (hi : s.inputs = .issue (asmAccept key) :: rest) (hf : key.length ≤ s.maxPayload.val)
    (hp : 8 * (key.length + 36) < 2 ^ 64) :
    ∃ t, step s = .next t ∧ t.strm = s.strm ∧
      t.status = { busy := false, done := true, err := false, hold := false } ∧ t.res.data = computeAccept key := by
  rw [← acceptMessage_length] at hp
  have hstep := step_issue_exec hb hi (asmAccept_fits hf) (decodeEncodeAgree .accept rfl)
  exact ⟨_, hstep.trans (exec_accept_completes hp), rfl, rfl, rfl⟩

/-- Settles O59: the response is built from the accept value on the result port, once the command has completed. -/
theorem serverSendsTheAcceptValue : Obligations.ServerSendsTheAcceptValue := by
  refine ⟨fun raw key r s hparse hkey hb hf hp hi => ?_, fun s => serverResponse_eq_none (v := s.hostView)⟩
  obtain ⟨t, hstep, hstrm, hstatus, hdata⟩ := step_asmAccept hb hi hf hp
  have hv : t.hostView.status = { busy := false, done := true, err := false, hold := false } := hstatus
  have hresponse : serverResponse t.hostView = some (buildResponse t.res.data) :=
    serverResponse_eq_some (by rw [hv]) (by rw [hv]) (by rw [hv])
  rw [hdata] at hresponse
  exact ⟨serverCommand_of_key hparse hkey, t, hstep, hstrm, hresponse⟩

end Sys2Proof.Machine
end

section
/-! PROOFS. Errors, refusals and faults (60_exceptions.md R108, R120): which codes a command raises, which refusals a step
gives, and that no reachable step is a fault. -/

namespace Sys2Proof.Machine

/-! ### What a command answers -/

/-- The outcome of a command that finds `e` in ERRCODE and raises the codes `cs`: a next state whose ERRCODE is `e` or a raised
code, or one of the refusals of 60_exceptions.md R120 (2); never a fault. -/
inductive Answers (cs : List (BitVec 4)) (e : BitVec 4) : Result → Prop
  | next {t : State} (h : t.errcode = e ∨ t.errcode ∈ cs) : Answers cs e (.next t)
  | refused {r : Refusal} (h : r = .payloadOverCapacity ∨ r = .messageUnpaddable) : Answers cs e (.refused r)

/-- An outcome that leaves ERRCODE as it is raises nothing. -/
theorem Answers.keeps {cs : List (BitVec 4)} {e : BitVec 4} {o : Result} {t : State} (ho : o = .next t)
    (h : t.errcode = e) : Answers cs e o :=
  ho ▸ .next (.inl h)

theorem Answers.raises {cs : List (BitVec 4)} {e c : BitVec 4} {o : Result} {s : State} (ho : o = .next (errored c s))
    (h : c ∈ cs) : Answers cs e o :=
  ho ▸ .next (.inr h)

theorem Answers.errcode {cs : List (BitVec 4)} {e : BitVec 4} {t : State} (h : Answers cs e (.next t)) :
    t.errcode = e ∨ t.errcode ∈ cs := by
  cases h with
  | next h => exact h

theorem Answers.refusal {cs : List (BitVec 4)} {e : BitVec 4} {r : Refusal} (h : Answers cs e (.refused r)) :
    r = .payloadOverCapacity ∨ r = .messageUnpaddable := by
  cases h with
  | refused h => exact h

theorem Answers.noFault {cs : List (BitVec 4)} {e : BitVec 4} {o : Result} (h : Answers cs e o) : NoFault o := by
  cases h with
  | next | refused => nofun

/-! ### Pulls -/

/-- A pull in buffer mode raises `TruncatedFrameError` or goes on. -/
theorem onBuffer_answers {cs : List (BitVec 4)} {n : Nat} {s : State} {k : Bytes → State → Result} (h1 : 1 ∈ cs)
    (hk : ∀ bs w, Answers cs s.errcode (k bs { s with work := w })) : Answers cs s.errcode (onBuffer n s k) := by
  rcases onBuffer_cases n s k with ⟨-, e⟩ | ⟨-, e⟩
  · exact .raises e h1
  · exact e ▸ hk _ _

/-- A pull in stream mode holds or goes on. -/
theorem onStream_answers {cs : List (BitVec 4)} {n : Nat} {s : State} {k : Bytes → State → Result}
    (hk : ∀ bs, Answers cs s.errcode (k bs (consumed n s))) : Answers cs s.errcode (onStream n s k) := by
  rcases onStream_cases n s k with ⟨-, e⟩ | ⟨-, e⟩
  · exact .keeps e rfl
  · exact e ▸ hk _

/-! ### The phases of a frame decode, in either mode -/

section
variable {cs : List (BitVec 4)} {next : Phase → State → Result} {txt : Bool}

/-- The end of a frame raises what the close split and the text check raise. -/
theorem Answers.of_post {s : State} {o : Result} (hp : postCodes txt ⊆ cs)
    (h : ∃ t, o = .next t ∧ DecodeEnds (postCodes txt) s t) : Answers cs s.errcode o := by
  obtain ⟨t, e, ⟨c, hc, w, rfl⟩ | ⟨r, w, -, rfl⟩⟩ := h
  · exact .raises e (hp hc)
  · exact .keeps e rfl

/-- An empty payload has nothing to raise an error for, so the end of such a frame adds no code. -/
theorem afterKey_answers (hn : ∀ ph s, Answers cs s.errcode (next ph s)) (s : State) :
    Answers cs s.errcode (afterKey next txt s) := by
  by_cases h : s.work.plen = 0
  · exact .keeps (afterKey_empty h next txt) rfl
  · exact afterKey_payload h next txt ▸ hn .fPay s

theorem afterLength_answers (hn : ∀ ph s, Answers cs s.errcode (next ph s)) (v : BitVec 64) (s : State) :
    Answers cs s.errcode (afterLength next txt v s) := by
  refine iteInduction (fun _ => .refused (.inl rfl)) fun _ => iteInduction (fun _ => ?_) fun _ => ?_
  · exact hn .fKey { s with work := { s.work with plen := v } }
  · exact afterKey_answers hn { s with work := { s.work with plen := v } }

theorem keyPhase_answers (hn : ∀ ph s, Answers cs s.errcode (next ph s)) (bs : Bytes) (s : State) :
    Answers cs s.errcode (keyPhase next txt bs s) :=
  afterKey_answers hn { s with work := { s.work with key := MaskKey.ofPulled bs } }

/-- F_EXT adds the `ProtocolError` of a length not in its shortest form. -/
theorem extPhase_answers (h2 : 2 ∈ cs) (hn : ∀ ph s, Answers cs s.errcode (next ph s)) (ext : Bytes) (s : State) :
    Answers cs s.errcode (extPhase next txt ext s) := by
  rcases extPhase_cases next txt ext s with ⟨-, e⟩ | ⟨v, -, e⟩
  · exact .raises e h2
  · exact e ▸ afterLength_answers hn v s

theorem headerPhase_answers (hn : ∀ ph s, Answers cs s.errcode (next ph s)) (f : HeaderFields) (s : State) :
    Answers cs s.errcode (headerPhase next txt f s) := by
  rcases headerPhase_cases next txt f s with ⟨-, e⟩ | ⟨-, e⟩
  · exact e ▸ afterLength_answers hn _ (headerLatched f s)
  · exact e ▸ hn .fExt (headerLatched f s)

theorem streamNext_answers (ph : Phase) (s : State) : Answers cs s.errcode (streamNext ph s) :=
  .keeps (streamNext_eq ph s) rfl

end

theorem two_mem_postCodes (txt : Bool) : 2 ∈ postCodes txt := by
  cases txt <;> decide

/-! ### FDECB -/

section
variable {cs : List (BitVec 4)} {txt : Bool} (h1 : 1 ∈ cs) (hp : postCodes txt ⊆ cs)
include h1 hp

theorem bufferPay_answers (s : State) : Answers cs s.errcode (bufferPay txt s) :=
  onBuffer_answers h1 fun bs w => .of_post hp (payPhase_ends txt bs { s with work := w })

theorem bufferAfterLength_answers (ph : Phase) (s : State) : Answers cs s.errcode (bufferAfterLength txt ph s) := by
  cases ph with
  | fKey =>
    exact onBuffer_answers h1 fun bs w =>
      keyPhase_answers (fun _ s => bufferPay_answers h1 hp s) bs { s with work := w }
  | fPay | idle | exec | fHdr | fExt | fPost => exact bufferPay_answers h1 hp s

theorem bufferNext_answers (ph : Phase) (s : State) : Answers cs s.errcode (bufferNext txt ph s) := by
  unfold bufferNext
  split
  · exact onBuffer_answers h1 fun bs w =>
      extPhase_answers (hp (two_mem_postCodes txt)) (bufferAfterLength_answers h1 hp) bs { s with work := w }
  all_goals exact bufferAfterLength_answers h1 hp _ s

theorem execFdecb_answers (s : State) : Answers cs s.errcode (execFdecb txt s) :=
  onBuffer_answers (s := clearCount s) h1 fun bs w =>
    headerPhase_answers (bufferNext_answers h1 hp) _ (latchHeader (headerOfBytes bs) { s with work := w })

end

/-! ### The stream commands -/

theorem execFdecs_answers (txt : Bool) (s : State) : Answers (postCodes txt) s.errcode (execFdecs txt s) := by
  unfold execFdecs
  cases s.phase with
  | idle | exec => exact streamNext_answers .fHdr (clearCount s)
  | fHdr =>
    exact onStream_answers fun bs => headerPhase_answers streamNext_answers _ (latchHeader _ (consumed 2 s))
  | fExt => exact onStream_answers fun bs => extPhase_answers (two_mem_postCodes txt) streamNext_answers bs (consumed _ s)
  | fKey => exact onStream_answers fun bs => keyPhase_answers streamNext_answers bs (consumed _ s)
  | fPay => exact onStream_answers fun bs => .of_post (s := consumed _ s) (List.Subset.refl _) (payPhase_ends txt bs _)
  | fPost => exact .of_post (List.Subset.refl _) (finishFrame_ends txt s)

theorem finishLength_answers {cs : List (BitVec 4)} (h2 : 2 ∈ cs) (len7 : BitVec 7) (ext : Bytes) (s : State) :
    Answers cs s.errcode (finishLength len7 ext s) := by
  rcases finishLength_cases len7 ext s with e | ⟨v, e⟩
  · exact .raises e h2
  · exact .keeps e rfl

theorem execLdecs_answers (len7 : BitVec 7) (s : State) : Answers [2] s.errcode (execLdecs len7 s) := by
  by_cases hp : s.phase = .fExt
  · rw [execLdecs_fExt hp]
    exact onStream_answers fun ext => finishLength_answers (by decide) len7 ext (consumed _ s)
  · exact .keeps (execLdecs_enters hp len7) rfl

/-! ### The commands of one step -/

theorem execLenc_answers (s : State) : Answers [2] s.errcode (execLenc s) := by
  cases h : lenEnc s.ops.len.toNat with
  | none => exact .raises (execLenc_none h) (by decide)
  | some _ => exact .keeps (execLenc_some h) rfl

theorem execMask_answers (s : State) : Answers [3] s.errcode (execMask s) := by
  cases h : applyMask s.ops.data s.ops.key with
  | none => exact .raises (execMask_none h) (by decide)
  | some _ => exact .keeps (execMask_some h) rfl

theorem execUtf8v_answers (s : State) : Answers [4] s.errcode (execUtf8v s) :=
  iteInduction (fun _ => .keeps rfl rfl) fun _ => .raises rfl (by decide)

theorem exec_accept_answers (s : State) : Answers [] s.errcode (exec .accept s) := by
  rcases Nat.lt_or_ge (8 * (acceptMessage s.ops.data).length) (2 ^ 64) with hlt | hge
  · exact .keeps (exec_accept_completes hlt) rfl
  · exact exec_accept_refused hge ▸ .refused (.inr rfl)

/-- A payload that OP_DATA can hold has a wire length, so FENC raises only the length check of a supplied key (R81). -/
theorem execFenc_answers {s : State} (h : s.ops.data.length ≤ s.maxPayload.val) (opc : BitVec 4) (fin msk ksup : Bool) :
    Answers (mayRaise (.fenc opc fin msk ksup)) s.errcode (execFenc opc fin msk ksup s) := by
  have hlen : s.ops.data.length < 2 ^ 63 := h.trans_lt s.maxPayload.isLt
  by_cases hk : ksup = true → s.ops.key.length = 4
  · obtain ⟨_, _, _, e⟩ := execFenc_wireFrame (msk := msk) hlen hk opc fin
    exact .keeps e rfl
  · obtain ⟨rfl, hne⟩ := Classical.not_imp.mp hk
    cases msk with
    | false => exact .keeps (execFenc_unmasked hlen opc fin true) rfl
    | true => exact .raises (execFenc_keyLength hlen hne opc fin) (List.mem_singleton_self 3)

/-- Every command answers with its own error kinds (R108), or with a refusal the spec names. -/
theorem exec_answers {s : State} (h : s.ops.data.length ≤ s.maxPayload.val) (i : Instr) :
    Answers (mayRaise i) s.errcode (exec i s) := by
  cases i with
  | henc | hdec => exact .keeps rfl rfl
  | lenc => exact execLenc_answers s
  | ldecb len7 =>
    exact onBuffer_answers (cs := [1, 2]) (s := clearCount s) (by decide) fun ext w =>
      finishLength_answers (by decide) len7 ext { s with work := w }
  | ldecs len7 => exact execLdecs_answers len7 s
  | mask => exact execMask_answers s
  | fenc opc fin msk ksup => exact execFenc_answers h opc fin msk ksup
  | fdecb txt => exact execFdecb_answers (by cases txt <;> decide) (by cases txt <;> decide) s
  | fdecs txt => exact execFdecs_answers txt s
  | utf8v => exact execUtf8v_answers s
  | accept => exact exec_accept_answers s
  | _ => exact headerPhase_answers streamNext_answers ⟨_, _, _, _, _⟩ s

/-- Settles O51: a next state among the answers of the command. -/
theorem errorsByCommand : Obligations.ErrorsByCommand := by
  intro i s t h ht
  have ha := exec_answers h i
  rw [ht] at ha
  exact ha.errcode

/-! ### What a step answers -/

/-- A stream decode in flight answers as FDECS does, or is in a phase no run reaches. -/
theorem engineFrame_answers (txt : Bool) (s : State) :
    (s.phase ∉ [Phase.fHdr, .fExt, .fKey, .fPay] ∧ engineFrame txt s = .fault .strayPhase) ∨
      Answers (postCodes txt) s.errcode (engineFrame txt s) := by
  unfold engineFrame
  cases s.phase with
  | idle | exec => exact .inl ⟨by decide, rfl⟩
  | fExt | fKey | fPay | fPost => exact .inr (execFdecs_answers txt s)
  | fHdr =>
    refine .inr (iteInduction (fun _ => execFdecs_answers txt s) fun _ => ?_)
    rw [exec_decodeHeader]
    exact headerPhase_answers streamNext_answers _ (fetchHeader s)

/-- A length decode in flight answers as LDECS does, or is in a phase no run reaches. -/
theorem engineLength_answers (len7 : BitVec 7) (s : State) :
    (s.phase ≠ .fExt ∧ engineLength len7 s = .fault .strayPhase) ∨ Answers [2] s.errcode (engineLength len7 s) := by
  unfold engineLength
  cases s.phase with
  | fExt => exact .inr (execLdecs_answers len7 s)
  | idle | exec | fHdr | fKey | fPay | fPost => exact .inl ⟨by decide, rfl⟩

/-- Whose move a step is: the engine's (an issue waits while BUSY), an accepted issue, or that of an agent that always goes
on. -/
theorem step_cases (s : State) :
    (∃ inp, step s = engineStep { s with inputs := inp }) ∨
      (∃ p rest, s.inputs = .issue p :: rest ∧ step s = issueStep p { s with inputs := rest }) ∨
      ∃ t, step s = .next t := by
  rcases hi : s.inputs with _ | ⟨a, rest⟩
  · exact .inl ⟨s.inputs, step_engine_empty hi⟩
  · cases a with
    | engine => exact .inl ⟨rest, step_engine hi⟩
    | arrive => exact .inr (.inr ⟨_, step_arrive hi⟩)
    | take => exact .inr (.inr ⟨_, step_take hi⟩)
    | reset => exact .inr (.inr ⟨_, step_reset hi⟩)
    | issue p =>
      cases hb : s.status.busy with
      | false => exact .inr (.inl ⟨p, rest, rfl, step_issue hi hb⟩)
      | true => exact .inl ⟨s.inputs, step_issue_busy hi hb⟩

/-! ### Refusals -/

/-- The engine refuses only what the spec does, in every state. -/
theorem engineStep_refusal {s : State} {r : Refusal} (h : engineStep s = .refused r) :
    r = .payloadOverCapacity ∨ r = .messageUnpaddable := by
  rcases engineStep_cases s with ⟨-, e⟩ | ⟨-, ⟨txt, -, e⟩ | ⟨len7, -, e⟩ | e⟩ <;> rw [e] at h
  · cases h
  · rcases engineFrame_answers txt s with ⟨-, e⟩ | ha
    · cases e.symm.trans h
    · exact (h ▸ ha).refusal
  · rcases engineLength_answers len7 s with ⟨-, e⟩ | ha
    · cases e.symm.trans h
    · exact (h ▸ ha).refusal
  · cases h

/-- An issue refuses operands that do not fit, and then what the spec does. -/
theorem issueStep_refusal {p : PortCmd} {s : State} {r : Refusal} (h : issueStep p s = .refused r) :
    r = .payloadOverCapacity ∨ r = .messageUnpaddable ∨
      (r = .operandOverCapacity ∧ p.ops.fits s.maxPayload.val = false) := by
  rcases issueStep_cases p s with ⟨hf, e⟩ | ⟨hf, ⟨i, -, e⟩ | ⟨_, -, e⟩⟩ <;> rw [e] at h
  · cases h; exact .inr (.inr ⟨rfl, hf⟩)
  · have ha := exec_answers (s := latch p s) (dataLength_le_of_fits hf) i
    rw [h] at ha
    exact ha.refusal.imp_right .inl
  · cases h

/-- Settles O45, by the agent that moves. -/
theorem refusalsAreNamed : Obligations.RefusalsAreNamed := by
  intro s r h
  rcases step_cases s with ⟨inp, e⟩ | ⟨p, rest, hi, e⟩ | ⟨t, e⟩ <;> rw [e] at h
  · exact (engineStep_refusal h).imp_right .inl
  · exact (issueStep_refusal h).imp_right (.imp_right fun ⟨hr, hf⟩ => ⟨hr, p, rest, hi, hf⟩)
  · cases h

/-! ### Faults -/

/-- The command in flight in a state that meets the invariant (R18). -/
theorem State.Inv.inFlight {s : State} (h : s.Inv) (hb : s.status.busy = true) :
    (∃ txt, decodeCommand s.cmd = .ok (.fdecs txt)) ∨
      ∃ len7, decodeCommand s.cmd = .ok (.ldecs len7) ∧ s.phase = .fExt := by
  have hc := h.command
  rw [commandLegal, hb, Bool.not_true, Bool.false_or] at hc
  split at hc
  · exact .inl ⟨_, ‹_›⟩
  · exact .inr ⟨_, ‹_›, beq_iff_eq.mp hc⟩
  · cases hc
  · cases hc

/-- The invariant keeps the engine out of the stray phases. -/
theorem engineStep_noFault {s : State} (h : s.Inv) : NoFault (engineStep s) := by
  cases hb : s.status.busy with
  | false => rw [engineStep_idle hb]; nofun
  | true =>
    rcases h.inFlight hb with ⟨txt, hc⟩ | ⟨len7, hc, hp⟩
    · rw [engineStep_fdecs hb hc]
      rcases engineFrame_answers txt s with ⟨hn, -⟩ | ha
      · exact absurd (h.reads hb) hn
      · exact ha.noFault
    · rw [engineStep_ldecs hb hc]
      rcases engineLength_answers len7 s with ⟨hn, -⟩ | ha
      · exact absurd hp hn
      · exact ha.noFault

/-- An issue is no fault, whatever the state. -/
theorem issueStep_noFault (p : PortCmd) (s : State) : NoFault (issueStep p s) := by
  rcases issueStep_cases p s with ⟨-, e⟩ | ⟨hf, ⟨i, -, e⟩ | ⟨_, -, e⟩⟩ <;> rw [e]
  · nofun
  · exact (exec_answers (s := latch p s) (dataLength_le_of_fits hf) i).noFault
  · nofun

/-- Settles O44, by the agent that moves. -/
theorem invStepsNeverFault : Obligations.InvStepsNeverFault := by
  intro s h
  rcases step_cases s with ⟨inp, e⟩ | ⟨p, rest, -, e⟩ | ⟨t, e⟩ <;> rw [e]
  · exact engineStep_noFault (h.of_stream s.strm inp)
  · exact issueStep_noFault p _
  · nofun

end Sys2Proof.Machine
end

section
/-! PROOFS. The reset input (70_reset_and_hazards.md R121, R122). -/

namespace Sys2Proof.Machine

/-- Settles O40: the step is `step_reset`, and `resetRegs` gives each register its value of R32. -/
theorem resetInputClears : Obligations.ResetInputClears := fun s rest hi =>
  ⟨{ resetRegs s with inputs := rest }, step_reset hi, resetRegs_phase s, resetRegs_cmd s, resetRegs_ops s,
    resetRegs_status s, resetRegs_errcode s, resetRegs_res s, resetRegs_strm s, resetRegs_keyDraws s,
    resetRegs_drawCount s, rfl⟩

end Sys2Proof.Machine
end
